-- ==== Sys2Proof/Word.lean ====
section
/-! DEFINITION. The fixed widths of the block: spec/00_scope.md R11 and spec/30_encoding.md R61. -/

namespace Sys2Proof

/-- One line level or one status bit, 0 or 1 (R11: "`button_state` is 1 bit"; R64: `clk`, `dt`, `level`). -/
abbrev Bit := BitVec 1

/-- The 2-bit sample `{clk, dt}` (R11, R68). -/
abbrev Sample := BitVec 2

/-- The quadrature shift register (R11, R24). -/
abbrev QuadReg := BitVec 8

/-- A 16-bit mask or snapshot of the expander's port, bit `i` for line `i` (R11, R41). -/
abbrev Port := BitVec 16

/-- The 36-bit command word, the spec's own spelling of an operation (R61, decision D4). -/
abbrev CommandWord := BitVec 36

end Sys2Proof
end

