-- ==== Sys2Proof/Syntax.lean ====
section
/-! DEFINITION. The operations of the block as syntax: spec/30_encoding.md R60, R62 to R64 and R74.
Each operand type admits exactly the operands the spec gives, so no term of Instr is ill-formed. -/

namespace Sys2Proof

/-- The step request: `delta` is `+1` or `-1` and nothing else (R102, decision D8). -/
inductive Direction where
  | inc
  | dec
  deriving DecidableEq, Repr

/-- `delta` as an integer (R64). -/
def Direction.delta : Direction → Int
  | .inc => 1
  | .dec => -1

/-- One constructor per row of spec/opcode_table.json (R62). -/
inductive Instr where
  /-- CONSTRUCT, R80. -/
  | construct
  /-- ON_ROTATION clk, dt, R90. -/
  | onRotation (clk dt : Bit)
  /-- STEP delta, R100. -/
  | step (d : Direction)
  /-- ON_BUTTON level, R110. -/
  | onButton (level : Bit)
  /-- HANDLE_INTERRUPT flagged, captured, R130. -/
  | handleInterrupt (flagged captured : Port)
  /-- START, R140. -/
  | start
  /-- STOP, R141. -/
  | stop
  /-- IRQ flagged, captured, R137. -/
  | irq (flagged captured : Port)
  deriving DecidableEq, Repr

/-- The pseudo-instructions (R74, decision D6). -/
inductive Pseudo where
  | stepInc
  | stepDec
  | rotDec
  | rotInc
  deriving DecidableEq, Repr

/-- The fixed expansion of a pseudo-instruction (R74). -/
def Pseudo.expand : Pseudo → List Instr
  | .stepInc => [.step .inc]
  | .stepDec => [.step .dec]
  | .rotDec  => [.onRotation 1 0, .onRotation 1 1, .onRotation 0 1, .onRotation 0 0]
  | .rotInc  => [.onRotation 0 1, .onRotation 1 1, .onRotation 1 0, .onRotation 0 0]

end Sys2Proof
end

