-- ==== Sys2Proof/Decode.lean ====
section
/-! DEFINITION. The command word and its decoder, encoder and opcode table: spec/30_encoding.md R61 to R67.
The word is the spec's own spelling of an operation (decision D4); no meaning depends on it (R60). -/

namespace Sys2Proof

/-- Why a word spells no operation (R66). -/
inductive DecodeError where
  /-- The operation code is reserved: 0x0, 0x5 or 0xA to 0xF. -/
  | reservedOp (op : BitVec 4)
  /-- The "zero" field of this operation code's format is not all zeros. -/
  | nonzeroField (op : BitVec 4)
  deriving DecidableEq, Repr

/-! ### Fields of the word (R61, R63, R64) -/

/-- `op = w[35:32]`. -/
def opOf (w : CommandWord) : BitVec 4 := w.extractLsb' 32 4

/-- `clk = w[1]`. -/
def clkOf (w : CommandWord) : Bit := w.extractLsb' 1 1

/-- `dt = w[0]`. -/
def dtOf (w : CommandWord) : Bit := w.extractLsb' 0 1

/-- `level = w[0]`. -/
def levelOf (w : CommandWord) : Bit := w.extractLsb' 0 1

/-- `d = w[0]` selects the step: 0 is `+1`, 1 is `-1`. -/
def directionOf (w : CommandWord) : Direction := if w.extractLsb' 0 1 = 0#1 then .inc else .dec

/-- `flagged = w[31:16]`. -/
def flaggedOf (w : CommandWord) : Port := w.extractLsb' 16 16

/-- `captured = w[15:0]`. -/
def capturedOf (w : CommandWord) : Port := w.extractLsb' 0 16

/-! ### Decoder (R65) -/

/-- Accept `i` if bits 31 down to `low` of the word are all zero, else refuse by name. -/
def withZeroField (w : CommandWord) (low : Nat) (i : Instr) : Except DecodeError Instr :=
  if w.extractLsb' low (32 - low) = 0 then .ok i else .error (.nonzeroField (opOf w))

/-- The decoding algorithm of R65: look the operation code up in R62, check the "zero" field of its format (R63),
extract the operands (R64). -/
def decode (w : CommandWord) : Except DecodeError Instr :=
  if opOf w = 0x1#4 then withZeroField w 0 .construct
  else if opOf w = 0x2#4 then withZeroField w 2 (.onRotation (clkOf w) (dtOf w))
  else if opOf w = 0x3#4 then withZeroField w 1 (.step (directionOf w))
  else if opOf w = 0x4#4 then withZeroField w 1 (.onButton (levelOf w))
  else if opOf w = 0x6#4 then .ok (.handleInterrupt (flaggedOf w) (capturedOf w))
  else if opOf w = 0x7#4 then withZeroField w 0 .start
  else if opOf w = 0x8#4 then withZeroField w 0 .stop
  else if opOf w = 0x9#4 then .ok (.irq (flaggedOf w) (capturedOf w))
  else .error (.reservedOp (opOf w))

/-! ### Encoder (R62 to R64) -/

/-- The operation code of each operation (R62). -/
def Instr.opcode : Instr → BitVec 4
  | .construct           => 0x1#4
  | .onRotation _ _      => 0x2#4
  | .step _              => 0x3#4
  | .onButton _          => 0x4#4
  | .handleInterrupt _ _ => 0x6#4
  | .start               => 0x7#4
  | .stop                => 0x8#4
  | .irq _ _             => 0x9#4

/-- The bit `d` of a direction (R64). -/
def Direction.bit : Direction → Bit
  | .inc => 0#1
  | .dec => 1#1

/-- The 32-bit payload: formats Z, S, D, L and P, most significant field first (R63). -/
def Instr.payload : Instr → BitVec 32
  | .construct                        => 0#32
  | .onRotation clk dt                => (0#30 ++ clk) ++ dt
  | .step d                           => 0#31 ++ d.bit
  | .onButton level                   => 0#31 ++ level
  | .handleInterrupt flagged captured => flagged ++ captured
  | .start                            => 0#32
  | .stop                             => 0#32
  | .irq flagged captured             => flagged ++ captured

/-- The command word of an operation: `{op, payload}` (R61). -/
def encode (i : Instr) : CommandWord := i.opcode ++ i.payload

/-! ### The opcode table in match and mask form (R65, spec/opcode_table.json) -/

/-- A row: a word `w` spells it when `w & mask == match`. -/
structure OpcodeRow where
  mnemonic  : String
  matchBits : CommandWord
  mask      : CommandWord
  deriving DecidableEq, Repr

/-- `w & mask == match`. -/
def OpcodeRow.matches (r : OpcodeRow) (w : CommandWord) : Bool := w &&& r.mask == r.matchBits

def opcodeTable : List OpcodeRow :=
  [ ⟨"CONSTRUCT",        0x100000000#36, 0xFFFFFFFFF#36⟩,
    ⟨"ON_ROTATION",      0x200000000#36, 0xFFFFFFFFC#36⟩,
    ⟨"STEP",             0x300000000#36, 0xFFFFFFFFE#36⟩,
    ⟨"ON_BUTTON",        0x400000000#36, 0xFFFFFFFFE#36⟩,
    ⟨"HANDLE_INTERRUPT", 0x600000000#36, 0xF00000000#36⟩,
    ⟨"START",            0x700000000#36, 0xFFFFFFFFF#36⟩,
    ⟨"STOP",             0x800000000#36, 0xFFFFFFFFF#36⟩,
    ⟨"IRQ",              0x900000000#36, 0xF00000000#36⟩ ]

/-- The mnemonic of an operation's row (R62). -/
def Instr.mnemonic : Instr → String
  | .construct           => "CONSTRUCT"
  | .onRotation _ _      => "ON_ROTATION"
  | .step _              => "STEP"
  | .onButton _          => "ON_BUTTON"
  | .handleInterrupt _ _ => "HANDLE_INTERRUPT"
  | .start               => "START"
  | .stop                => "STOP"
  | .irq _ _             => "IRQ"

/-! ### Words given as numbers -/

/-- The command word whose bits are the number `w`, bits from `nbits` up taken as zero; none if the number has a bit
above bit 35, since no command word has one. The block has one word length, so `nbits` is read as at least 36
(DESIGN CHOICE, log 20). -/
def commandWordOfNat (nbits w : Nat) : Option CommandWord :=
  if w % 2 ^ max nbits 36 < 2 ^ 36 then some (BitVec.ofNat 36 (w % 2 ^ max nbits 36)) else none

/-- The operation the decoder reads from the word whose bits are `w`; none where it refuses. -/
def decodeTableWord (nbits w : Nat) : Option Instr :=
  match commandWordOfNat nbits w with
  | none   => none
  | some c => (decode c).toOption

end Sys2Proof
end

