-- ==== Sys2Proof/Config.lean ====
section
/-! DEFINITION. The configuration record of one instance: spec/00_scope.md R9 and R12.
The model has no free value: the spec leaves no result of any operation undefined. -/

namespace Sys2Proof

/-- `pin_assignment` (R27): the bit positions of the encoder lines within the 16-bit port. The indices are naturals
("a negative index is not representable", R85); that they lie in 0 to 15 is a check (R10), so that the ill-formed
records CONSTRUCT rejects can be written. `swBit` is meaningful only when `swPresent` (R9). -/
structure PinAssignment where
  clkBit    : Nat
  dtBit     : Nat
  swPresent : Bool
  swBit     : Nat
  deriving DecidableEq, Repr

/-- The configuration record (R9). The counts are mathematical integers (R12, decision D7). -/
structure Config where
  pins      : PinAssignment
  initVal   : Int
  minVal    : Int
  maxVal    : Int
  cbPresent : Bool
  deriving DecidableEq, Repr

/-- The record State.reset is built with: configuration A of spec/95_test_vectors.md.
DESIGN CHOICE (log 1): the spec fixes no record and takes it as an argument (R9). Statements quantify over every record. -/
def Config.reference : Config :=
  { pins      := { clkBit := 7, dtBit := 6, swPresent := true, swBit := 5 }
    initVal   := 5
    minVal    := 0
    maxVal    := 10
    cbPresent := true }

end Sys2Proof
end

