-- ==== Sys2Proof/Machine/Operands.lean ====
section
/-! DEFINITION. The data encodings every operation works with: the sample, the history mask, the terminal codes
(spec/30_encoding.md R68 to R70) and the port masks and levels (R71, R72). -/

namespace Sys2Proof.Machine

/-- `s = (clk << 1) | dt`, 2 bits (R68, R91). -/
def sample (clk dt : Bit) : Sample := (clk.setWidth 2 <<< 1) ||| dt.setWidth 2

/-- The history mask, six one bits (R70). -/
def historyMask : QuadReg := 0x3F#8

/-- The terminal code of one decrement, `0b10110100` (R69). -/
def decrementCode : QuadReg := 180#8

/-- The terminal code of one increment, `0b01111000` (R69). -/
def incrementCode : QuadReg := 120#8

/-- The mask of port line `i`, `1 << i` in 16 bits (R71). -/
def lineMask (i : Nat) : Port := 1#16 <<< i

/-- The level of line `i` in a snapshot, `(c >> i) & 1` (R71). -/
def lineLevel (c : Port) (i : Nat) : Bit := (c >>> i).setWidth 1

/-- The rotation mask `(1 << CLK_BIT) | (1 << DT_BIT)` (R71). -/
def rotationMask (p : PinAssignment) : Port := lineMask p.clkBit ||| lineMask p.dtBit

/-- The switch mask `1 << SW_BIT` (R71). -/
def switchMask (p : PinAssignment) : Port := lineMask p.swBit

/-- The armed mask `M` (R72). Without a switch it has the two rotation bits only (decision D11, log 7). -/
def armedMask (p : PinAssignment) : Port := if p.swPresent then rotationMask p ||| switchMask p else rotationMask p

end Sys2Proof.Machine
end

