-- ==== Sys2Proof/Machine/Events.lean ====
section
/-! DEFINITION. The output events: spec/00_scope.md R14, spec/20_memory.md R41 to R44, R55. -/

namespace Sys2Proof.Machine

/-- The collaborator registers the block ORs into (R41, R42). -/
inductive OrRegister where
  | mode
  | pullup
  | inputPolarity
  | interruptEnable
  deriving DecidableEq, Repr

/-- The collaborator register the block discard-reads (R41, R43). The sixth register of R41, `interrupt_flag`, is
touched by no rule of the block. -/
inductive DrainRegister where
  | interruptCaptured
  deriving DecidableEq, Repr

/-- The mode argument of the interrupt line's `init` (R44). -/
inductive LineMode where
  | input
  deriving DecidableEq, Repr

/-- The trigger of a binding (R44, R155: "Only falling edges trigger"). -/
inductive Trigger where
  | fallingEdge
  deriving DecidableEq, Repr

/-- What an operation may append to the output trace (R14). -/
inductive OutEvent where
  /-- `Event(value, button_state)`: the callback's invocation (R121). -/
  | event (value : Int) (buttonState : Bit)
  /-- `PortOr(reg, mask)` (R42). -/
  | portOr (reg : OrRegister) (mask : Port)
  /-- `PortDiscardRead(reg)`; the value read is dropped (R43). -/
  | portDiscardRead (reg : DrainRegister)
  /-- `LineInit(mode)` (R44). -/
  | lineInit (mode : LineMode)
  /-- `IrqBind(trigger)`; the handler is always the block's own (R44). -/
  | irqBind (trigger : Trigger)
  /-- `IrqUnbind` (R44). -/
  | irqUnbind
  deriving DecidableEq, Repr

/-- The callback's invocations among the events. -/
def OutEvent.isSink : OutEvent → Bool
  | .event _ _ => true
  | _          => false

/-- The events of CONSTRUCT in order, `m` the armed mask (R55, R80; the order is the spec's choice, D12, log 6). -/
def constructionEvents (m : Port) : List OutEvent :=
  [.portOr .mode m, .portOr .pullup m, .portOr .inputPolarity m, .portOr .interruptEnable m, .lineInit .input]

/-- The events of START in order (R52, R140). -/
def startEvents : List OutEvent := [.irqBind .fallingEdge, .portDiscardRead .interruptCaptured]

/-- The events of STOP in order (R52, R141). -/
def stopEvents : List OutEvent := [.irqUnbind, .portDiscardRead .interruptCaptured]

end Sys2Proof.Machine
end

