-- ==== Sys2Proof/Machine/State.lean ====
section
/-! DEFINITION. The state of the block and the reasons a step can stop: spec/10_state.md R20 to R38,
spec/60_exceptions.md R150 to R152. -/

namespace Sys2Proof.Machine

/-- The four causes of a configuration fault, in the order CONSTRUCT checks them (R85, R150). -/
inductive ConfigCause where
  | boundsInverted
  | initOutsideBounds
  | pinOutsidePort
  | pinsOverlap
  deriving DecidableEq, Repr

/-- The cause code (R150; the numbering is the spec's own, decision D18). -/
def ConfigCause.code : ConfigCause → Nat
  | .boundsInverted    => 1
  | .initOutsideBounds => 2
  | .pinOutsidePort    => 3
  | .pinsOverlap       => 4

/-- The faults of the block. -/
inductive Fault where
  /-- `ConfigViolation(code)`: raised by CONSTRUCT alone, on an ill-formed configuration (R85, R150). The spec names it
  and calls it fatal, so the run ends; SAFE (log 11). -/
  | configViolation (cause : ConfigCause)
  deriving DecidableEq, Repr

/-- The refusals. -/
inductive Refusal where
  /-- An instruction that has no meaning yet, by its mnemonic: raised by exec's arms alone, and by none of them now.
  SAFE. -/
  | notModelled (mnemonic : String)
  /-- A command word that spells no operation (R66): raised by step. SAFE (log 12). -/
  | illegalWord (why : DecodeError)
  /-- An operation other than CONSTRUCT on an instance that does not exist (R85, R170, U2): raised by every meaning but
  CONSTRUCT's. SAFE (log 3). -/
  | noSuchInstance
  deriving DecidableEq, Repr

/-- The state of the machine. The fields from `value` to `onChange` are the elements of R20; `cfg` is the record of R9
that CONSTRUCT reads, `constructed` says whether the instance exists (R170), `trace` is the output trace of R14 and
`commands` the part of the command stream (R30) that is not executed yet. -/
structure State where
  /-- The configuration record of the instance (R9): an input, written by no operation. -/
  cfg         : Config
  /-- Whether a CONSTRUCT has succeeded (R85, R170). -/
  constructed : Bool
  /-- `value`, the current count (R21). -/
  value       : Int
  /-- `min_val` (R22). -/
  minVal      : Int
  /-- `max_val` (R22). -/
  maxVal      : Int
  /-- `quad_state` (R24): the last four samples, oldest in bits 7:6. -/
  quadState   : QuadReg
  /-- `button_state` (R26). -/
  buttonState : Bit
  /-- `bound` (R28): the dispatcher is the active handler of the interrupt line. -/
  bound       : Bool
  /-- `pin_assignment` (R27). -/
  pins        : PinAssignment
  /-- `on_change` (R29): whether a change callback is configured. -/
  onChange    : Bool
  /-- The output trace, oldest event first (R14, R16). -/
  trace       : List OutEvent
  /-- The presented command words not executed yet, the next one first (R30). -/
  commands    : List CommandWord
  deriving DecidableEq, Repr

/-- No instance yet (R170): the configuration stands ready and nothing was emitted. No operation reads the registers
before CONSTRUCT writes them, so their zeros are seen by nothing (log 3). -/
def State.beforeConstruct (cfg : Config) : State :=
  { cfg
    constructed := false
    value       := 0
    minVal      := 0
    maxVal      := 0
    quadState   := 0#8
    buttonState := 0#1
    bound       := false
    pins        := { clkBit := 0, dtBit := 0, swPresent := false, swBit := 0 }
    onChange    := false
    trace       := []
    commands    := [] }

/-- The state after CONSTRUCT with the record `cfg`, every element at its reset value (R37; `bound = 0` is decision
D13, log 2). -/
def State.afterConstruct (cfg : Config) : State :=
  { cfg
    constructed := true
    value       := cfg.initVal
    minVal      := cfg.minVal
    maxVal      := cfg.maxVal
    quadState   := 0#8
    buttonState := 0#1
    bound       := false
    pins        := cfg.pins
    onChange    := cfg.cbPresent
    trace       := constructionEvents (armedMask cfg.pins)
    commands    := [] }

/-- The machine right after reset: "a model's initial state is the state after CONSTRUCT with a well-formed
configuration" (R170). Which record is a DESIGN CHOICE (log 1). -/
def State.reset : State := State.afterConstruct Config.reference

end Sys2Proof.Machine
end

