-- ==== Sys2Proof/Machine/Flags.lean ====
section
/-! DEFINITION. The block has no flags register; "The only status bits are `button_state` and `bound`", and no
operation writes either as a side effect of computing something else (spec/10_state.md R32). -/

namespace Sys2Proof.Machine

/-- Write `button_state` (R26). -/
def State.setButtonState (s : State) (level : Bit) : State := { s with buttonState := level }

/-- Write `bound` (R28). -/
def State.setBound (s : State) (b : Bool) : State := { s with bound := b }

end Sys2Proof.Machine
end

