-- ==== Sys2Proof/Machine/Ops.lean ====
section
/-! DEFINITION. The operations every meaning shares: register writes, the output trace, Notify
(spec/44_notify.md R120 to R126), the existence of the instance (spec/70_reset_and_hazards.md R170) and the command
stream (spec/10_state.md R30). The block has no memory (R40) and takes no exception into a handler: its one fault is
fatal (R150), and interrupt entry saves and switches nothing (R157). -/

namespace Sys2Proof.Machine

/-- Write `value` (R21). -/
def State.setValue (s : State) (v : Int) : State := { s with value := v }

/-- Write `quad_state` (R24). -/
def State.setQuadState (s : State) (q : QuadReg) : State := { s with quadState := q }

/-- `emit`: append events to the output trace (R14). -/
def State.emit (s : State) (es : List OutEvent) : State := { s with trace := s.trace ++ es }

/-- Notify (R120): report `(value, button_state)` when a callback is configured, else do nothing. The callback is
assumed to return and to issue no operation before it does (R124, decision D19, log 15). -/
def notify (s : State) : State := if s.onChange then s.emit [.event s.value s.buttonState] else s

/-- Run an operation of an existing instance to completion. An operation on an instance that does not exist is refused
(R85: "every later operation on it is meaningless and a model should refuse it"; U2; log 3). -/
def onInstance (f : State → State) (s : State) : Host.Outcome State Fault Refusal :=
  if s.constructed then .next (f s) else .refused .noSuchInstance

/-- Raise `ConfigViolation`: the operation ends with no state change and no event (R14, R150). -/
def raiseConfigViolation (cause : ConfigCause) : Host.Outcome State Fault Refusal := .fault (.configViolation cause)

/-- Take the next presented command word off the stream; none when nothing is presented (R30). -/
def takeCommand (s : State) : Option (CommandWord × State) :=
  match s.commands with
  | []        => none
  | w :: rest => some (w, { s with commands := rest })

/-- Present a command word ahead of the rest of the stream. -/
def presentCommand (s : State) (w : CommandWord) : State := { s with commands := w :: s.commands }

end Sys2Proof.Machine
end

