-- ==== Sys2Proof/Machine/Binding.lean ====
section
/-! DEFINITION. START and STOP: spec/46_start_stop.md R140 to R147. Neither reads `bound` (R143, decision D15, log 14). -/

namespace Sys2Proof.Machine

/-- The procedure of START (R140): bind, then drain the latch. -/
def bindHandler (s : State) : State := (s.setBound true).emit startEvents

/-- The procedure of STOP (R141): unbind, then drain the latch; nothing is torn down (R145). -/
def unbindHandler (s : State) : State := (s.setBound false).emit stopEvents

/-- START (R140). -/
def execStart (s : State) : Host.Outcome State Fault Refusal := onInstance bindHandler s

/-- STOP (R141). -/
def execStop (s : State) : Host.Outcome State Fault Refusal := onInstance unbindHandler s

end Sys2Proof.Machine
end

