-- ==== Sys2Proof/Machine/Construct.lean ====
section
/-! DEFINITION. CONSTRUCT: spec/40_construct.md R80 to R87. -/

namespace Sys2Proof.Machine

/-- CheckConfig (R85): the first check that fails gives the cause (decision D18, log 11). -/
def checkConfig (c : Config) : Option ConfigCause :=
  if c.minVal > c.maxVal then some .boundsInverted
  else if c.initVal < c.minVal ∨ c.initVal > c.maxVal then some .initOutsideBounds
  else if c.pins.clkBit > 15 ∨ c.pins.dtBit > 15 ∨ (c.pins.swPresent = true ∧ c.pins.swBit > 15) then some .pinOutsidePort
  else if c.pins.clkBit = c.pins.dtBit ∨
      (c.pins.swPresent = true ∧ (c.pins.swBit = c.pins.clkBit ∨ c.pins.swBit = c.pins.dtBit)) then some .pinsOverlap
  else none

/-- The state writes of CONSTRUCT (R80, R82): the copies of the configuration and the reset values. -/
def loadConfig (s : State) : State :=
  { s with
    constructed := true
    minVal      := s.cfg.minVal
    maxVal      := s.cfg.maxVal
    pins        := s.cfg.pins
    onChange    := s.cfg.cbPresent
    value       := s.cfg.initVal
    quadState   := 0#8
    buttonState := 0#1
    bound       := false }

/-- CONSTRUCT (R80). On a live instance it is a full reset again (R86, decision D14, log 5). -/
def execConstruct (s : State) : Host.Outcome State Fault Refusal :=
  match checkConfig s.cfg with
  | some cause => raiseConfigViolation cause
  | none       => .next ((loadConfig s).emit (constructionEvents (armedMask s.cfg.pins)))

end Sys2Proof.Machine
end

