-- ==== Sys2Proof/Machine/Button.lean ====
section
/-! DEFINITION. The button level register, ON_BUTTON: spec/43_button.md R110 to R114. -/

namespace Sys2Proof.Machine

/-- The procedure of ON_BUTTON (R110): store the level, then notify; no edge test, no filter (R111, R113). -/
def reportButton (level : Bit) (s : State) : State := notify (s.setButtonState level)

/-- ON_BUTTON (R110). -/
def execOnButton (level : Bit) (s : State) : Host.Outcome State Fault Refusal := onInstance (reportButton level) s

end Sys2Proof.Machine
end

