-- ==== Sys2Proof/Machine/Counter.lean ====
section
/-! DEFINITION. The saturating counter, STEP: spec/42_counter.md R100 to R107. -/

namespace Sys2Proof.Machine

/-- `clamp(x, lo, hi)` (R101, decision D9, log 10). -/
def clamp (x lo hi : Int) : Int := if x < lo then lo else if x > hi then hi else x

/-- The procedure `Step(delta)` (R100): store the clamped sum, then notify whether or not `value` changed. -/
def stepCounter (d : Direction) (s : State) : State :=
  notify (s.setValue (clamp (s.value + d.delta) s.minVal s.maxVal))

/-- STEP (R100). -/
def execStep (d : Direction) (s : State) : Host.Outcome State Fault Refusal := onInstance (stepCounter d) s

/-! ### Finite-width realisation (R12, R107)
`value` and the bounds held in `W`-bit two's-complement registers. The machine above does not use these; R12 says that
under its width requirement every rule gives the same values for every `W`. -/

/-- The form of R103, which forms no number outside the bounds. -/
def narrowStep {W : Nat} (d : Direction) (v lo hi : BitVec W) : BitVec W :=
  match d with
  | .inc => if hi.sle v then hi else v + 1#W
  | .dec => if v.sle lo then lo else v - 1#W

/-- The other form R107 allows: the sum formed in `W + 1` bits before clamping. -/
def wideStep {W : Nat} (d : Direction) (v lo hi : BitVec W) : BitVec W :=
  let sum : BitVec (W + 1) := v.signExtend (W + 1) + BitVec.ofInt (W + 1) d.delta
  if sum.slt (lo.signExtend (W + 1)) then lo
  else if (hi.signExtend (W + 1)).slt sum then hi
  else sum.setWidth W

end Sys2Proof.Machine
end

