-- ==== Sys2Proof/Machine/Quadrature.lean ====
section
/-! DEFINITION. The quadrature state machine, ON_ROTATION: spec/41_quadrature.md R90 to R99. -/

namespace Sys2Proof.Machine

/-- The shift (R92, R93): keep the low six bits, move them up by two, enter the sample. -/
def shiftSample (q : QuadReg) (s : Sample) : QuadReg := ((q &&& historyMask) <<< 2) ||| s.setWidth 8

/-- The transition table (R94): two terminal codes, no step for any other value. -/
def terminalStep (q : QuadReg) : Option Direction :=
  if q = decrementCode then some .dec else if q = incrementCode then some .inc else none

/-- The procedure of ON_ROTATION (R90): write `quad_state` always (R95, decision D10, log 8), then step if the new
value is a terminal code. -/
def rotate (clk dt : Bit) (s : State) : State :=
  let q := shiftSample s.quadState (sample clk dt)
  match terminalStep q with
  | some d => stepCounter d (s.setQuadState q)
  | none   => s.setQuadState q

/-- ON_ROTATION (R90). -/
def execOnRotation (clk dt : Bit) (s : State) : Host.Outcome State Fault Refusal := onInstance (rotate clk dt) s

end Sys2Proof.Machine
end

