-- ==== Sys2Proof/Machine/Interrupt.lean ====
section
/-! DEFINITION. Interrupt dispatch, HANDLE_INTERRUPT and IRQ: spec/45_dispatch.md R130 to R139. -/

namespace Sys2Proof.Machine

/-- The procedure of HANDLE_INTERRUPT (R130): the three cases in the order R131, R132, R133. -/
def handleInterrupt (flagged captured : Port) (s : State) : State :=
  if s.pins.swPresent = true ∧ flagged = switchMask s.pins then reportButton (lineLevel captured s.pins.swBit) s
  else if flagged &&& rotationMask s.pins ≠ 0#16 then
    rotate (lineLevel captured s.pins.clkBit) (lineLevel captured s.pins.dtBit) s
  else s

/-- The delivery of an interrupt (R137): the handler runs when it is bound, else nothing happens. -/
def deliverInterrupt (flagged captured : Port) (s : State) : State :=
  if s.bound then handleInterrupt flagged captured s else s

/-- HANDLE_INTERRUPT (R130); `bound` does not gate it (R146, decision D17, log 14). -/
def execHandleInterrupt (flagged captured : Port) (s : State) : Host.Outcome State Fault Refusal :=
  onInstance (handleInterrupt flagged captured) s

/-- IRQ (R137). Its operands are free inputs and it makes no collaborator access (R138, decision D16, log 13). -/
def execIrq (flagged captured : Port) (s : State) : Host.Outcome State Fault Refusal :=
  onInstance (deliverInterrupt flagged captured) s

end Sys2Proof.Machine
end

