-- ==== Sys2Proof/Machine/Dispatch.lean ====
section
/-! DEFINITION. One arm per operation of the opcode table (spec/30_encoding.md R62). -/

namespace Sys2Proof.Machine

def exec (i : Instr) (s : State) : Host.Outcome State Fault Refusal :=
  match i with
  | .construct => Sys2Proof.Machine.execConstruct s
  | .onRotation clk dt => Sys2Proof.Machine.execOnRotation clk dt s
  | .step d => Sys2Proof.Machine.execStep d s
  | .onButton level => Sys2Proof.Machine.execOnButton level s
  | .handleInterrupt flagged captured => Sys2Proof.Machine.execHandleInterrupt flagged captured s
  | .start => Sys2Proof.Machine.execStart s
  | .stop => Sys2Proof.Machine.execStop s
  | .irq flagged captured => Sys2Proof.Machine.execIrq flagged captured s

end Sys2Proof.Machine
end

