-- ==== Sys2Proof/Machine/Step.lean ====
section
/-! DEFINITION. One step: the next presented command word is decoded and its operation runs to completion
(spec/10_state.md R30, spec/20_memory.md R51). -/

namespace Sys2Proof.Machine

/-- Run one command word: an illegal word is refused, changes no state and emits no event (R66, R152). -/
def runWord (w : CommandWord) (s : State) : Host.Outcome State Fault Refusal :=
  match decode w with
  | .ok i      => exec i s
  | .error why => .refused (.illegalWord why)

/-- One step. With nothing presented the block "is idle and holds its state" (R30, R165; log 4). -/
def step (s : State) : Host.Outcome State Fault Refusal :=
  match takeCommand s with
  | none         => .next s
  | some (w, s') => runWord w s'

/-- Present the word whose bits are `w` as the next command: the word stands in front of the stream, and nothing else
changes (log 4). A number that is no 36-bit word spells no operation, and the reserved word 0 stands for it (log 20). -/
def State.withFetchWord (s : State) (nbits w : Nat) : State :=
  presentCommand s ((commandWordOfNat nbits w).getD 0#36)

end Sys2Proof.Machine
end

