-- ==== Sys2Proof/Machine/Assembly.lean ====
section
/-! DEFINITION. The textual spelling of operations, programs and configurations: spec/30_encoding.md R73 and R74
(decision D6: "No effect on behaviour"). Lines are lists of characters. Where R73 is silent (white space, hexadecimal
letter case, number of digits) the choice is log 18's. -/

namespace Sys2Proof.Machine

/-! ### Names: the mnemonics of R62, the pseudo-instructions of R74, the parameters of R9 -/

def nameConstruct : List Char := ['C', 'O', 'N', 'S', 'T', 'R', 'U', 'C', 'T']
def nameOnRotation : List Char := ['O', 'N', '_', 'R', 'O', 'T', 'A', 'T', 'I', 'O', 'N']
def nameStep : List Char := ['S', 'T', 'E', 'P']
def nameOnButton : List Char := ['O', 'N', '_', 'B', 'U', 'T', 'T', 'O', 'N']
def nameHandleInterrupt : List Char := ['H', 'A', 'N', 'D', 'L', 'E', '_', 'I', 'N', 'T', 'E', 'R', 'R', 'U', 'P', 'T']
def nameStart : List Char := ['S', 'T', 'A', 'R', 'T']
def nameStop : List Char := ['S', 'T', 'O', 'P']
def nameIrq : List Char := ['I', 'R', 'Q']
def nameStepInc : List Char := ['S', 'T', 'E', 'P', '_', 'I', 'N', 'C']
def nameStepDec : List Char := ['S', 'T', 'E', 'P', '_', 'D', 'E', 'C']
def nameRotDec : List Char := ['R', 'O', 'T', '_', 'D', 'E', 'C']
def nameRotInc : List Char := ['R', 'O', 'T', '_', 'I', 'N', 'C']
def nameClkBit : List Char := ['C', 'L', 'K', '_', 'B', 'I', 'T']
def nameDtBit : List Char := ['D', 'T', '_', 'B', 'I', 'T']
def nameSwPresent : List Char := ['S', 'W', '_', 'P', 'R', 'E', 'S', 'E', 'N', 'T']
def nameSwBit : List Char := ['S', 'W', '_', 'B', 'I', 'T']
def nameInitVal : List Char := ['I', 'N', 'I', 'T', '_', 'V', 'A', 'L']
def nameMinVal : List Char := ['M', 'I', 'N', '_', 'V', 'A', 'L']
def nameMaxVal : List Char := ['M', 'A', 'X', '_', 'V', 'A', 'L']
def nameCbPresent : List Char := ['C', 'B', '_', 'P', 'R', 'E', 'S', 'E', 'N', 'T']

/-! ### Printing -/

/-- One hexadecimal digit, upper case. -/
def hexDigit (d : BitVec 4) : Char := ['0', '1', '2', '3', '4', '5', '6', '7', '8', '9', 'A', 'B', 'C', 'D', 'E', 'F'].getD d.toNat '0'

/-- "a 16-bit number written `0x....`" (R73): four digits, most significant first. -/
def portText (p : Port) : List Char :=
  ['0', 'x', hexDigit (p.extractLsb' 12 4), hexDigit (p.extractLsb' 8 4), hexDigit (p.extractLsb' 4 4),
    hexDigit (p.extractLsb' 0 4)]

/-- A bit operand, 0 or 1. -/
def bitText (b : Bit) : List Char := if b = 0#1 then ['0'] else ['1']

/-- The direction of STEP, `+1` or `-1`. -/
def directionText : Direction → List Char
  | .inc => ['+', '1']
  | .dec => ['-', '1']

/-- The line of an operation (R73): the mnemonic, then its operands separated by commas. -/
def lineText : Instr → List Char
  | .construct                        => nameConstruct
  | .onRotation clk dt                => nameOnRotation ++ [' '] ++ bitText clk ++ [',', ' '] ++ bitText dt
  | .step d                           => nameStep ++ [' '] ++ directionText d
  | .onButton level                   => nameOnButton ++ [' '] ++ bitText level
  | .handleInterrupt flagged captured => nameHandleInterrupt ++ [' '] ++ portText flagged ++ [',', ' '] ++ portText captured
  | .start                            => nameStart
  | .stop                             => nameStop
  | .irq flagged captured             => nameIrq ++ [' '] ++ portText flagged ++ [',', ' '] ++ portText captured

/-! ### Reading -/

/-- Drop the spaces at both ends. -/
def trim (l : List Char) : List Char := ((l.dropWhile (· == ' ')).reverse.dropWhile (· == ' ')).reverse

/-- Cut a line at every `sep`. -/
def splitAtChar (sep : Char) : List Char → List (List Char)
  | []      => [[]]
  | c :: cs =>
    match splitAtChar sep cs with
    | []      => [[c]]
    | p :: ps => if c == sep then [] :: p :: ps else (c :: p) :: ps

/-- "A line comment starts with `;`" (R73): drop it and the outer spaces. -/
def lineBody (l : List Char) : List Char := trim (l.takeWhile (· != ';'))

/-- The value of a hexadecimal digit, either case. -/
def hexValue (c : Char) : Option (BitVec 4) :=
  if 48 ≤ c.toNat ∧ c.toNat ≤ 57 then some (BitVec.ofNat 4 (c.toNat - 48))
  else if 65 ≤ c.toNat ∧ c.toNat ≤ 70 then some (BitVec.ofNat 4 (c.toNat - 55))
  else if 97 ≤ c.toNat ∧ c.toNat ≤ 102 then some (BitVec.ofNat 4 (c.toNat - 87))
  else none

/-- Read a 16-bit operand, `0x` and exactly four digits. -/
def parsePort : List Char → Option Port
  | ['0', 'x', a, b, c, d] =>
    match hexValue a, hexValue b, hexValue c, hexValue d with
    | some a, some b, some c, some d => some (((a ++ b) ++ c) ++ d)
    | _, _, _, _ => none
  | _ => none

/-- Read a bit operand. -/
def parseBit : List Char → Option Bit
  | ['0'] => some 0#1
  | ['1'] => some 1#1
  | _     => none

/-- Read the operand of STEP. -/
def parseDirection : List Char → Option Direction
  | ['+', '1'] => some .inc
  | ['-', '1'] => some .dec
  | _          => none

/-- An operation without operands. -/
def parseNone (i : Instr) : List (List Char) → Option Instr
  | [] => some i
  | _  => none

/-- The operands of HANDLE_INTERRUPT and IRQ. -/
def parsePorts (f : Port → Port → Instr) : List (List Char) → Option Instr
  | [a, b] =>
    match parsePort a, parsePort b with
    | some flagged, some captured => some (f flagged captured)
    | _, _ => none
  | _ => none

/-- The operation a mnemonic and its operands spell (R73). -/
def parseOperation (m : List Char) (ops : List (List Char)) : Option Instr :=
  if m = nameConstruct then parseNone .construct ops
  else if m = nameOnRotation then
    match ops with
    | [a, b] =>
      match parseBit a, parseBit b with
      | some clk, some dt => some (.onRotation clk dt)
      | _, _ => none
    | _ => none
  else if m = nameStep then
    match ops with
    | [a] => (parseDirection a).map .step
    | _   => none
  else if m = nameOnButton then
    match ops with
    | [a] => (parseBit a).map .onButton
    | _   => none
  else if m = nameHandleInterrupt then parsePorts .handleInterrupt ops
  else if m = nameStart then parseNone .start ops
  else if m = nameStop then parseNone .stop ops
  else if m = nameIrq then parsePorts .irq ops
  else none

/-- The pseudo-instruction a mnemonic names (R74). -/
def parsePseudo (m : List Char) : Option Pseudo :=
  if m = nameStepInc then some .stepInc
  else if m = nameStepDec then some .stepDec
  else if m = nameRotDec then some .rotDec
  else if m = nameRotInc then some .rotInc
  else none

/-- The mnemonic of a line's body and its operands. -/
def lineParts (body : List Char) : List Char × List (List Char) :=
  let rest := trim (body.dropWhile (· != ' '))
  (body.takeWhile (· != ' '), if rest = [] then [] else (splitAtChar ',' rest).map trim)

/-- The operations a line spells: none for an empty or comment line, one for an operation, the expansion for a
pseudo-instruction. -/
def parseLine (l : List Char) : Option (List Instr) :=
  let body := lineBody l
  if body = [] then some []
  else
    match parsePseudo (lineParts body).1, (lineParts body).2 with
    | some p, [] => some p.expand
    | some _, _  => none
    | none, ops  => (parseOperation (lineParts body).1 ops).map ([·])

/-- A program, "one operation per line" (R73). -/
def parseProgram : List (List Char) → Option (List Instr)
  | []      => some []
  | l :: ls =>
    match parseLine l, parseProgram ls with
    | some is, some rest => some (is ++ rest)
    | _, _ => none

/-! ### The configuration list, `NAME = value` (R73) -/

/-- Read a decimal natural. -/
def parseNat (l : List Char) : Option Nat :=
  if l ≠ [] ∧ l.all Char.isDigit then some (l.foldl (fun n c => 10 * n + (c.toNat - 48)) 0) else none

/-- Read a decimal integer, a minus sign in front of a negative one. -/
def parseInt : List Char → Option Int
  | '-' :: l => (parseNat l).map fun n => -(n : Int)
  | l        => (parseNat l).map fun n => (n : Int)

/-- Read a parameter that is 0 or 1. -/
def parseFlag : List Char → Option Bool
  | ['0'] => some false
  | ['1'] => some true
  | _     => none

/-- The record with the named parameter of R9 set. -/
def setParameter (c : Config) (name value : List Char) : Option Config :=
  if name = nameClkBit then (parseNat value).map fun n => { c with pins := { c.pins with clkBit := n } }
  else if name = nameDtBit then (parseNat value).map fun n => { c with pins := { c.pins with dtBit := n } }
  else if name = nameSwPresent then (parseFlag value).map fun b => { c with pins := { c.pins with swPresent := b } }
  else if name = nameSwBit then (parseNat value).map fun n => { c with pins := { c.pins with swBit := n } }
  else if name = nameInitVal then (parseInt value).map fun v => { c with initVal := v }
  else if name = nameMinVal then (parseInt value).map fun v => { c with minVal := v }
  else if name = nameMaxVal then (parseInt value).map fun v => { c with maxVal := v }
  else if name = nameCbPresent then (parseFlag value).map fun b => { c with cbPresent := b }
  else none

/-- Read one `NAME = value`. -/
def parseSetting (c : Config) (l : List Char) : Option Config :=
  match splitAtChar '=' l with
  | [name, value] => setParameter c (trim name) (trim value)
  | _ => none

/-- Read a list of settings separated by commas, over a record that gives the parameters not named. -/
def parseConfig (c : Config) (l : List Char) : Option Config :=
  (splitAtChar ',' (lineBody l)).foldl (fun r s => r.bind (parseSetting · s)) (some c)

end Sys2Proof.Machine
end

