-- ==== Sys2Proof/Machine/Collaborator.lean ====
section
/-! DEFINITION. What the block's accesses do to the collaborator: spec/20_memory.md R41 to R44, R49, spec/10_state.md
R34 to R36. The collaborator is not state of the block (R34, R36, spec/00_scope.md R5), its contents after the block's
reset are not specified (R37, R171), and no rule of the block reads them; so they are no field of State, and this file
computes from the output trace what the trace makes of ANY contents before it (log 16). -/

namespace Sys2Proof.Machine

/-- A latched change (R34): which monitored bits changed, and the port at that moment. -/
structure Snapshot where
  flag     : Port
  captured : Port
  deriving DecidableEq, Repr

/-- The collaborator as far as the contract gives it: the four OR-written registers (R41), the interrupt latch behind
`interrupt_flag` and `interrupt_captured` (R34; none when clear), whether the interrupt line is initialised as input
(R44), and the trigger under which the block's handler is registered (R35; none when it is not). -/
structure Collaborator where
  mode            : Port
  pullup          : Port
  inputPolarity   : Port
  interruptEnable : Port
  latch           : Option Snapshot
  lineIsInput     : Bool
  handler         : Option Trigger
  deriving DecidableEq, Repr

/-- Read an OR-written register by name (R50). -/
def Collaborator.register (c : Collaborator) : OrRegister → Port
  | .mode            => c.mode
  | .pullup          => c.pullup
  | .inputPolarity   => c.inputPolarity
  | .interruptEnable => c.interruptEnable

/-- "the collaborator's register becomes `reg | mask`" (R42); the access is taken as atomic (decision D21, log 16).
DESIGN CHOICE (log 24): nothing else changes, the latch included, though arming a line may latch a change: the spec
leaves the latch after CONSTRUCT open (R171, U10). -/
def Collaborator.orInto (c : Collaborator) (mask : Port) : OrRegister → Collaborator
  | .mode            => { c with mode := c.mode ||| mask }
  | .pullup          => { c with pullup := c.pullup ||| mask }
  | .inputPolarity   => { c with inputPolarity := c.inputPolarity ||| mask }
  | .interruptEnable => { c with interruptEnable := c.interruptEnable ||| mask }

/-- The effect of one output event (R42, R43: reading `interrupt_captured` "clears the latch", R44, R155).
DESIGN CHOICE (log 23): a bind registers the handler and an unbind leaves none WHATEVER was registered before. For a bind
of a line already bound and an unbind of a line with no handler the spec leaves the effect to the peripheral (R143;
U13, "any value"). DESIGN CHOICE (log 24): an access changes only the part its rule names. -/
def Collaborator.after (c : Collaborator) : OutEvent → Collaborator
  | .event _ _                          => c
  | .portOr reg mask                    => c.orInto mask reg
  | .portDiscardRead .interruptCaptured => { c with latch := none }
  | .lineInit .input                    => { c with lineIsInput := true }
  | .irqBind trigger                    => { c with handler := some trigger }
  | .irqUnbind                          => { c with handler := none }

/-- The effect of a list of events, oldest first. -/
def Collaborator.afterAll (c : Collaborator) (es : List OutEvent) : Collaborator := es.foldl Collaborator.after c

end Sys2Proof.Machine
end

