-- ==== Sys2Proof/WellFormed.lean ====
section
/-! DEFINITION. What may be ill-formed on this hardware: a configuration record (spec/00_scope.md R10) and a command
word (spec/30_encoding.md R66). An operation, once it is a term of Instr, is well-formed by its type. -/

namespace Sys2Proof

/-- The pin indices lie in 0 to 15 and are pairwise distinct; the switch index counts only when a switch is
configured (R10). -/
abbrev PinAssignment.WellFormed (p : PinAssignment) : Prop :=
  p.clkBit ≤ 15 ∧ p.dtBit ≤ 15 ∧ p.clkBit ≠ p.dtBit ∧
    (p.swPresent = true → p.swBit ≤ 15 ∧ p.swBit ≠ p.clkBit ∧ p.swBit ≠ p.dtBit)

/-- A well-formed configuration (R10): "`min_val ≤ initial value ≤ max_val`; bit indices distinct and within the
addressable port width (0–15)". -/
abbrev Config.WellFormed (c : Config) : Prop :=
  c.minVal ≤ c.initVal ∧ c.initVal ≤ c.maxVal ∧ c.pins.WellFormed

/-- The operation code is one of the eight that spell an operation (R62, R66). -/
abbrev assignedOp (op : BitVec 4) : Prop :=
  op ≠ 0x0#4 ∧ op ≠ 0x5#4 ∧ op < 0xA#4

/-- The lowest bit of the "zero" field of an operation code's format; the field runs up to bit 31, and 32 says that
the format (P) has none (R63). -/
def zeroFieldLow (op : BitVec 4) : Nat :=
  match op.toNat with
  | 2 => 2
  | 3 => 1
  | 4 => 1
  | 6 => 32
  | 9 => 32
  | _ => 0

/-- A legal command word (R66): an assigned operation code, and the "zero" field of its format all zeros, that is, the
32-bit payload below the lowest bit of that field. -/
abbrev LegalWord (w : CommandWord) : Prop :=
  assignedOp (w.extractLsb' 32 4) ∧ (w.extractLsb' 0 32).toNat < 2 ^ zeroFieldLow (w.extractLsb' 32 4)

end Sys2Proof
end

