-- ==== Sys2Proof/Safety.lean ====
section
/-! DEFINITION. The terms claims about runs are stated in: the invariant of spec/10_state.md R23 and R31, the
observation of spec/00_scope.md R16, and runs of several operations. -/

namespace Sys2Proof.Machine

/-- "`min_val <= value <= max_val`" (R23). -/
abbrev State.InBounds (s : State) : Prop := s.minVal ≤ s.value ∧ s.value ≤ s.maxVal

/-- The immutable elements are the copies of a well-formed configuration record (R20, R22, R31). -/
abbrev State.HoldsConfig (s : State) : Prop :=
  s.cfg.WellFormed ∧ s.minVal = s.cfg.minVal ∧ s.maxVal = s.cfg.maxVal ∧ s.pins = s.cfg.pins ∧ s.onChange = s.cfg.cbPresent

/-- What holds of every instance at all times (R22, R23, R31); before the first CONSTRUCT there is no instance (R170). -/
abbrev State.Inv (s : State) : Prop := s.constructed = true → s.HoldsConfig ∧ s.InBounds

/-- An event, if it is a report to the callback, is one the configuration allows: a callback is configured, and the
reported value lies within the bounds (R120, R121). -/
def reportable (cfg : Config) : OutEvent → Bool
  | .event v _ => cfg.cbPresent && decide (cfg.minVal ≤ v) && decide (v ≤ cfg.maxVal)
  | _          => true

/-- Every report in the trace is one the configuration allows. -/
abbrev State.TraceAllowed (s : State) : Prop := ∀ e ∈ s.trace, reportable s.cfg e = true

/-- How many callback invocations a list of events holds. -/
def sinkCount (es : List OutEvent) : Nat := es.countP OutEvent.isSink

/-- The register holds one of the two terminal codes (R94). -/
def State.landed (t : State) : Bool := t.quadState == 180#8 || t.quadState == 120#8

/-- "exactly `W`" of the decision table (R139): a switch is configured and it is the sole flagged source (R131). -/
def switchAlone (p : PinAssignment) (flagged : Port) : Bool := p.swPresent && flagged == 1#16 <<< p.swBit

/-- "any mask with at least one bit of `R`" (R139). -/
def touchesRotation (p : PinAssignment) (flagged : Port) : Bool :=
  flagged &&& ((1#16 <<< p.clkBit) ||| (1#16 <<< p.dtBit)) != 0#16

/-- The reports of a handled interrupt from `s` to `t` (R126): one for the button, one for a rotation that lands on a
terminal code, none for a dropped one. -/
def handlerReports (s t : State) (flagged : Port) : Nat :=
  if switchAlone s.pins flagged then 1 else if touchesRotation s.pins flagged && t.landed then 1 else 0

/-- The table of R126: how many reports an operation from `s` to `t` makes when a callback is configured. -/
def tabulatedReports (s t : State) : Instr → Nat
  | .construct           => 0
  | .onRotation _ _      => if t.landed then 1 else 0
  | .step _              => 1
  | .onButton _          => 1
  | .handleInterrupt f _ => handlerReports s t f
  | .start               => 0
  | .stop                => 0
  | .irq f _             => if s.bound then handlerReports s t f else 0

/-- Run operations one after another, stopping at the first fault or refusal. -/
def execAll : List Instr → State → Host.Outcome State Fault Refusal
  | [], s => .next s
  | i :: is, s =>
    match exec i s with
    | .next s'   => execAll is s'
    | .fault r   => .fault r
    | .refused r => .refused r

/-- The outcome with `f` applied to the state it ends in, if it ends in one. -/
def mapNext (f : State → State) : Host.Outcome State Fault Refusal → Host.Outcome State Fault Refusal
  | .next s    => .next (f s)
  | .fault r   => .fault r
  | .refused r => .refused r

/-- The samples of a list fed as ON_ROTATION operations. -/
def rotations (samples : List (Bit × Bit)) : List Instr := samples.map fun p => .onRotation p.1 p.2

/-- The deliveries of a list fed as IRQ operations. -/
def deliveries (inputs : List (Port × Port)) : List Instr := inputs.map fun p => .irq p.1 p.2

end Sys2Proof.Machine
end

