-- ==== Sys2Proof/Certificates/Slice0/Obligations.lean ====
section
/-! DEFINITION. The statements for the provers. Each docstring names the rule or the section of spec/ it formalises;
where a clause rests on a choice (a decision D<n> of spec/92_eei_decisions.md or a log entry) it says so. -/

open Sys2Proof Sys2Proof.Machine

/-! ### Encoding: 30_encoding.md (the command word is the spec's own choice, decision D4) -/

/-- Every operation is read back from its command word, whatever its operands (section 2, decision D4). -/
def Obligations.DecodeOfEncodeIsTheOperation : Prop :=
  ∀ i : Instr, decode (encode i) = .ok i

/-- A word that decodes is the encoding of what it decodes to, so no bit of a legal word is ignored (section 2,
decision D4). -/
def Obligations.DecodedWordIsItsEncoding : Prop :=
  ∀ (w : CommandWord) (i : Instr), decode w = .ok i → encode i = w

/-- The decoding algorithm and the match/mask table of section 2 accept the same words and name the same operation. -/
def Obligations.DecoderAgreesWithMatchMaskTable : Prop :=
  ∀ (w : CommandWord) (m : String),
    (∃ i, decode w = .ok i ∧ i.mnemonic = m) ↔ ∃ r ∈ opcodeTable, r.mnemonic = m ∧ w &&& r.mask = r.matchBits

/-- A word decodes exactly when it is legal: an assigned operation code and a zero "zero" field (section 2,
decision D5). -/
def Obligations.ExactlyTheLegalWordsDecode : Prop :=
  ∀ w : CommandWord, (∃ i, decode w = .ok i) ↔ LegalWord w

/-- Words written out from the bit tables of section 2 decode to the operations they stand for. -/
def Obligations.WrittenOutWordsDecode : Prop :=
  decode 0x100000000#36 = .ok .construct ∧
  decode 0x200000002#36 = .ok (.onRotation 1 0) ∧
  decode 0x300000001#36 = .ok (.step .dec) ∧
  decode 0x400000001#36 = .ok (.onButton 1) ∧
  decode 0x6004000C0#36 = .ok (.handleInterrupt 0x0040 0x00C0) ∧
  decode 0x700000000#36 = .ok .start ∧
  decode 0x800000000#36 = .ok .stop ∧
  decode 0x900200000#36 = .ok (.irq 0x0020 0x0000)

/-- The assembler line of an operation is read back as that operation (section 4, decision D6; log 18). -/
def Obligations.AssemblerLineIsReadBack : Prop :=
  ∀ i : Instr, parseLine (lineText i) = some [i]

/-! ### The command stream: 10_state.md, 20_memory.md -/

/-- A step executes the operation the next presented word decodes to, with that word taken off the stream
(10_state.md section 3, decision D2; log 4). -/
def Obligations.StepRunsTheDecodedCommand : Prop :=
  ∀ (s : State) (w : CommandWord) (rest : List CommandWord) (i : Instr),
    s.commands = w :: rest → decode w = .ok i → step s = exec i { s with commands := rest }

/-- A word that spells no operation is refused by the name of its fault (30_encoding.md section 2, decision D5). -/
def Obligations.IllegalWordIsRefused : Prop :=
  ∀ (s : State) (w : CommandWord) (rest : List CommandWord), s.commands = w :: rest →
    (¬ assignedOp (w.extractLsb' 32 4) → step s = .refused (.illegalWord (.reservedOp (w.extractLsb' 32 4)))) ∧
    (assignedOp (w.extractLsb' 32 4) → ¬ LegalWord w →
      step s = .refused (.illegalWord (.nonzeroField (w.extractLsb' 32 4))))

/-- With nothing presented the block is idle and holds its state (60_exceptions.md section 6; log 4). -/
def Obligations.IdleBlockHoldsItsState : Prop :=
  ∀ s : State, s.commands = [] → step s = .next s

/-- A word the decoder reads is run by the next step after it is presented, in whatever state (log 4). -/
def Obligations.PresentedWordRunsNext : Prop :=
  ∀ (s : State) (nbits w : Nat) (i : Instr),
    decodeTableWord nbits w = some i → step (s.withFetchWord nbits w) = exec i s

/-- "All Decoder operations execute one at a time in the order the environment presents them, each to completion
before the next begins": running the machine over the words of a list of operations is running the operations in that
order (20_memory.md section 4). -/
def Obligations.CommandStreamRunsInOrder : Prop :=
  ∀ (is : List Instr) (s : State) (rest : List CommandWord), s.commands = is.map encode ++ rest →
    Host.Core.run core is.length s = execAll is { s with commands := rest }

/-! ### CONSTRUCT: 40_construct.md, 60_exceptions.md -/

/-- CONSTRUCT with a well-formed record: every element at its reset value and the five events. The order of the
events is decision D12 (log 6), `bound = 0` is D13 (log 2), the mask without a switch is D11 (log 7), and that a live
instance is reset again is D14 (log 5): the spec's choices, not the source's. -/
def Obligations.ConstructLoadsConfigAndArmsLines : Prop :=
  ∀ s : State, s.cfg.WellFormed →
    exec .construct s = .next
      { cfg         := s.cfg
        constructed := true
        value       := s.cfg.initVal
        minVal      := s.cfg.minVal
        maxVal      := s.cfg.maxVal
        quadState   := 0
        buttonState := 0
        bound       := false
        pins        := s.cfg.pins
        onChange    := s.cfg.cbPresent
        trace       := s.trace ++
          (let m := (1#16 <<< s.cfg.pins.clkBit) ||| (1#16 <<< s.cfg.pins.dtBit) |||
            (if s.cfg.pins.swPresent then 1#16 <<< s.cfg.pins.swBit else 0#16)
           [.portOr .mode m, .portOr .pullup m, .portOr .inputPolarity m, .portOr .interruptEnable m, .lineInit .input])
        commands    := s.commands }

/-- What the first CONSTRUCT of a well-formed record does: the source's reset values, and the five events in some order.
Free of the order D12 gives the events and of D13 and D14; that CONSTRUCT is the operation that emits LineInit still
rests on D12 (log 6), and the mask without a switch on D11 (log 7). -/
def Obligations.FirstConstructWhateverTheEventOrder : Prop :=
  ∀ s : State, s.constructed = false → s.cfg.WellFormed → ∃ t es,
    exec .construct s = .next t ∧ t.constructed = true ∧ t.cfg = s.cfg ∧ t.commands = s.commands ∧
    t.value = s.cfg.initVal ∧ t.quadState = 0 ∧ t.buttonState = 0 ∧ t.minVal = s.cfg.minVal ∧ t.maxVal = s.cfg.maxVal ∧
    t.pins = s.cfg.pins ∧ t.onChange = s.cfg.cbPresent ∧ t.trace = s.trace ++ es ∧
    es.Perm (.lineInit .input ::
      [OrRegister.mode, .pullup, .inputPolarity, .interruptEnable].map (OutEvent.portOr · (armedMask s.cfg.pins)))

/-- R84: one finished mask goes to all four registers, each written once by the first CONSTRUCT; with a switch it is the
mask of the three lines (without one, which mask it is rests on D11, log 7, and is not said here). -/
def Obligations.SameMaskGoesToAllFourRegisters : Prop :=
  ∀ (s t : State) (es : List OutEvent),
    s.constructed = false → exec .construct s = .next t → t.trace = s.trace ++ es →
    ∃ m : Port, (∀ (reg : OrRegister) (m' : Port), es.count (.portOr reg m') = if m' = m then 1 else 0) ∧
      (s.cfg.pins.swPresent = true →
        m = (1#16 <<< s.cfg.pins.clkBit) ||| (1#16 <<< s.cfg.pins.dtBit) ||| (1#16 <<< s.cfg.pins.swBit))

/-- CONSTRUCT of an ill-formed record faults, and only then. The codes and the order of the checks are decision D18
(log 11), and that a live instance answers as an absent one does is D14 (log 5). -/
def Obligations.IllFormedConfigurationFaults : Prop :=
  ∀ s : State,
    let c := s.cfg
    let overlap := c.pins.clkBit = c.pins.dtBit ∨
      (c.pins.swPresent = true ∧ (c.pins.swBit = c.pins.clkBit ∨ c.pins.swBit = c.pins.dtBit))
    let outside := 15 < c.pins.clkBit ∨ 15 < c.pins.dtBit ∨ (c.pins.swPresent = true ∧ 15 < c.pins.swBit)
    (c.maxVal < c.minVal → exec .construct s = .fault (.configViolation .boundsInverted)) ∧
    (c.minVal ≤ c.maxVal → (c.initVal < c.minVal ∨ c.maxVal < c.initVal) →
      exec .construct s = .fault (.configViolation .initOutsideBounds)) ∧
    (c.minVal ≤ c.initVal → c.initVal ≤ c.maxVal → outside →
      exec .construct s = .fault (.configViolation .pinOutsidePort)) ∧
    (c.minVal ≤ c.initVal → c.initVal ≤ c.maxVal → ¬ outside → overlap →
      exec .construct s = .fault (.configViolation .pinsOverlap)) ∧
    ((∃ r, exec .construct s = .fault r) ↔ ¬ c.WellFormed)

/-- R151: no operation but CONSTRUCT can fault, and on an existing instance each of them completes. -/
def Obligations.NoOtherOperationCanFault : Prop :=
  (∀ (i : Instr) (s : State) (r : Fault), exec i s = .fault r → i = .construct) ∧
  (∀ (i : Instr) (s : State), i ≠ .construct → s.constructed = true → ∃ t, exec i s = .next t)

/-- An operation other than CONSTRUCT on an instance that does not exist is refused and has no effect
(40_construct.md, 70_reset_and_hazards.md section 1, 93_implementation_defined.md U2; log 3). -/
def Obligations.NoInstanceNoOperation : Prop :=
  ∀ (i : Instr) (s : State), i ≠ .construct → s.constructed = false → exec i s = .refused .noSuchInstance

/-- Reset is the first CONSTRUCT: from no instance, with any well-formed record; the reset state is that of the record
log 1 names, with `bound = 0` by D13 (70_reset_and_hazards.md section 1). -/
def Obligations.ResetIsTheFirstConstruct : Prop :=
  (∀ c : Config, c.WellFormed → exec .construct (State.beforeConstruct c) = .next (State.afterConstruct c)) ∧
  State.reset = State.afterConstruct Config.reference ∧ Config.reference.WellFormed

/-- R81: after CONSTRUCT no operation changes a bound, a pin index or the presence of the callback. -/
def Obligations.ConfigurationIsFixedForLife : Prop :=
  ∀ (i : Instr) (s t : State), i ≠ .construct → exec i s = .next t →
    t.minVal = s.minVal ∧ t.maxVal = s.maxVal ∧ t.pins = s.pins ∧ t.onChange = s.onChange

/-! ### STEP: 42_counter.md -/

/-- R100: STEP stores the clamped sum and then notifies, whether or not `value` changed; nothing else changes. The same
procedure runs in ON_ROTATION on a terminal code. -/
def Obligations.StepStoresClampedSumThenNotifies : Prop :=
  (∀ (s : State) (d : Direction), s.constructed = true →
    let v := clamp (s.value + (match d with | .inc => 1 | .dec => -1)) s.minVal s.maxVal
    exec (.step d) s = .next
      { s with value := v, trace := s.trace ++ (if s.onChange then [.event v s.buttonState] else []) }) ∧
  (∀ (s : State) (clk dt : Bit),
    let q := ((s.quadState &&& 0x3F#8) <<< 2) ||| (clk.setWidth 8 <<< 1) ||| dt.setWidth 8
    (q = 180 → exec (.onRotation clk dt) s = exec (.step .dec) { s with quadState := q }) ∧
    (q = 120 → exec (.onRotation clk dt) s = exec (.step .inc) { s with quadState := q }))

/-- `clamp` in its three cases, and equal to both nestings of min and max (decision D9, log 10). -/
def Obligations.ClampIsTheThreeCaseFunction : Prop :=
  ∀ x lo hi : Int, lo ≤ hi →
    (x < lo → clamp x lo hi = lo) ∧ (hi < x → clamp x lo hi = hi) ∧ (lo ≤ x → x ≤ hi → clamp x lo hi = x) ∧
    clamp x lo hi = max lo (min x hi) ∧ clamp x lo hi = min hi (max x lo)

/-- The form of STEP that forms no number outside the bounds. -/
def Obligations.StepSaturatesAtTheBounds : Prop :=
  ∀ s : State, s.constructed = true → s.InBounds →
    (∃ t, exec (.step .inc) s = .next t ∧ t.value = if s.maxVal ≤ s.value then s.maxVal else s.value + 1) ∧
    (∃ t, exec (.step .dec) s = .next t ∧ t.value = if s.value ≤ s.minVal then s.minVal else s.value - 1)

/-- Steps lost at a bound are not counted: after any number of increments at the maximum one decrement gives
`max_val - 1`, and likewise at the minimum. -/
def Obligations.LostStepsAreNotRemembered : Prop :=
  ∀ (s : State) (n : Nat), s.constructed = true → s.minVal < s.maxVal →
    (s.value = s.maxVal → ∃ t, execAll (List.replicate n (.step .inc) ++ [.step .dec]) s = .next t ∧
      t.value = s.maxVal - 1) ∧
    (s.value = s.minVal → ∃ t, execAll (List.replicate n (.step .dec) ++ [.step .inc]) s = .next t ∧
      t.value = s.minVal + 1)

/-- Both finite-width forms give the integer's value for every width that holds the bounds. -/
def Obligations.FiniteWidthStepIsTheIntegerStep : Prop :=
  ∀ (W : Nat) (d : Direction) (v lo hi : BitVec W), 1 ≤ W → lo.toInt ≤ v.toInt → v.toInt ≤ hi.toInt →
    (narrowStep d v lo hi).toInt = clamp (v.toInt + d.delta) lo.toInt hi.toInt ∧
    (wideStep d v lo hi).toInt = clamp (v.toInt + d.delta) lo.toInt hi.toInt

/-! ### ON_ROTATION: 41_quadrature.md -/

/-- R90: the new register, the two terminal codes and no step for any other value; nothing else changes. -/
def Obligations.RotationShiftsAndStepsOnTerminalCodes : Prop :=
  ∀ (s : State) (clk dt : Bit), s.constructed = true →
    let q := ((s.quadState &&& 0x3F#8) <<< 2) ||| (clk.setWidth 8 <<< 1) ||| dt.setWidth 8
    let stepped (delta : Int) : State :=
      { s with
        quadState := q
        value     := clamp (s.value + delta) s.minVal s.maxVal
        trace     := s.trace ++
          (if s.onChange then [.event (clamp (s.value + delta) s.minVal s.maxVal) s.buttonState] else []) }
    (q = 180 → exec (.onRotation clk dt) s = .next (stepped (-1))) ∧
    (q = 120 → exec (.onRotation clk dt) s = .next (stepped 1)) ∧
    (q ≠ 180 → q ≠ 120 → exec (.onRotation clk dt) s = .next { s with quadState := q })

/-- The masked shift is the 8-bit shift that drops the bits shifted out. -/
def Obligations.MaskedShiftIsTruncatingShift : Prop :=
  ∀ (q : QuadReg) (s : Sample),
    shiftSample q s = (q <<< 2) ||| s.setWidth 8 ∧ (shiftSample q s).toNat = (4 * q.toNat + s.toNat) % 256

/-- A call steps down exactly from the registers whose low six bits are 45, up exactly from those whose low six bits
are 30, and only on the sample (0, 0). -/
def Obligations.StepsExactlyFromTheEightPairs : Prop :=
  ∀ (s : State) (clk dt : Bit), s.constructed = true →
    let zero := clk = 0 ∧ dt = 0
    (s.quadState &&& 0x3F = 45 → zero →
      exec (.onRotation clk dt) s = exec (.step .dec) { s with quadState := 180 }) ∧
    (s.quadState &&& 0x3F = 30 → zero →
      exec (.onRotation clk dt) s = exec (.step .inc) { s with quadState := 120 }) ∧
    (¬ (zero ∧ (s.quadState &&& 0x3F = 45 ∨ s.quadState &&& 0x3F = 30)) →
      ∃ q, q ≠ 180 ∧ q ≠ 120 ∧ exec (.onRotation clk dt) s = .next { s with quadState := q })

/-- The register is the last four samples of any sample sequence, the older ones supplied by the register before. -/
def Obligations.RegisterHoldsTheLastFourSamples : Prop :=
  ∀ (samples : List (Bit × Bit)) (s : State), s.constructed = true → ∃ t,
    execAll (rotations samples) s = .next t ∧
    t.quadState.toNat = samples.foldl (fun n p => 4 * n + 2 * p.1.toNat + p.2.toNat) s.quadState.toNat % 256 ∧
    t.buttonState = s.buttonState ∧ t.bound = s.bound

/-- Every one of the 256 register values is reached by some four samples, from any state. -/
def Obligations.EveryRegisterValueIsReachable : Prop :=
  ∀ (s : State) (q : QuadReg), s.constructed = true → ∃ samples t,
    samples.length = 4 ∧ execAll (rotations samples) s = .next t ∧ t.quadState = q

/-- Two steps are at least four calls apart: from a terminal code, one to three further samples of any kind leave the
count and the trace alone. -/
def Obligations.StepsAreFourCallsApart : Prop :=
  ∀ (s t : State) (samples : List (Bit × Bit)), (s.quadState = 180 ∨ s.quadState = 120) → 1 ≤ samples.length →
    samples.length ≤ 3 → execAll (rotations samples) s = .next t →
    t.quadState ≠ 180 ∧ t.quadState ≠ 120 ∧ t.value = s.value ∧ t.trace = s.trace

/-- The pseudo-instructions ROT_DEC and ROT_INC step exactly once, whatever the register held (30_encoding.md section 4,
decision D6). -/
def Obligations.RotationWindowsStepExactlyOnce : Prop :=
  ∀ s : State, s.constructed = true →
    execAll Pseudo.rotDec.expand s = exec (.step .dec) { s with quadState := 180 } ∧
    execAll Pseudo.rotInc.expand s = exec (.step .inc) { s with quadState := 120 }

/-- The window the source's section 8 prints for a decrement does not step (90_conflicts.md C1). -/
def Obligations.MisprintedWindowDoesNotStep : Prop :=
  ∀ s : State, s.constructed = true → s.quadState = 0 →
    execAll (rotations [(1, 0), (0, 0), (0, 1), (1, 1)]) s = .next { s with quadState := 135 }

/-! ### ON_BUTTON and Notify: 43_button.md, 44_notify.md -/

/-- R110: the level is stored whatever was stored before, then the notification; nothing else changes. -/
def Obligations.ButtonStoresLevelThenNotifies : Prop :=
  ∀ (s : State) (level : Bit), s.constructed = true →
    exec (.onButton level) s = .next
      { s with
        buttonState := level
        trace       := s.trace ++ (if s.onChange then [.event s.value level] else []) }

/-- R120: Notify. -/
def Obligations.NotifyReportsWhenCallbackConfigured : Prop :=
  ∀ s : State,
    (s.onChange = true → notify s = { s with trace := s.trace ++ [.event s.value s.buttonState] }) ∧
    (s.onChange = false → notify s = s)

/-- How many callback invocations each operation makes, complete, and that the trace only grows. -/
def Obligations.EachOperationReportsAsTabulated : Prop :=
  ∀ (i : Instr) (s t : State), exec i s = .next t → ∃ es, t.trace = s.trace ++ es ∧
    (t.onChange = false → sinkCount es = 0) ∧
    (t.onChange = true → sinkCount es = tabulatedReports s t i)

/-- A report carries the values current after the operation's writes, and a count within the bounds. -/
def Obligations.ReportsCarryTheNewValues : Prop :=
  ∀ (i : Instr) (s t : State) (es : List OutEvent) (v : Int) (b : Bit), s.Inv → exec i s = .next t →
    t.trace = s.trace ++ es → .event v b ∈ es → v = t.value ∧ b = t.buttonState ∧ t.minVal ≤ v ∧ v ≤ t.maxVal

/-- With no callback the block still updates its state exactly as with one; and no operation depends on what was
emitted before. -/
def Obligations.StateDoesNotDependOnTheCallback : Prop :=
  ∀ (i : Instr) (s : State) (cb : Bool) (tr : List OutEvent),
    mapNext (fun t => { t with onChange := false, trace := [] }) (exec i { s with onChange := cb, trace := tr }) =
      mapNext (fun t => { t with onChange := false, trace := [] }) (exec i s)

/-! ### HANDLE_INTERRUPT and IRQ: 45_dispatch.md -/

/-- R130: exactly one of three things, tested in this order. -/
def Obligations.HandlerTestsTheThreeCasesInOrder : Prop :=
  ∀ (s : State) (flagged captured : Port), s.constructed = true →
    let level (n : Nat) : Bit := ((captured >>> n) &&& 1#16).setWidth 1
    let case1 := s.pins.swPresent = true ∧ flagged = 1#16 <<< s.pins.swBit
    let case2 := flagged &&& ((1#16 <<< s.pins.clkBit) ||| (1#16 <<< s.pins.dtBit)) ≠ 0
    (∃ t, exec (.handleInterrupt flagged captured) s = .next t) ∧
    (case1 → exec (.handleInterrupt flagged captured) s = exec (.onButton (level s.pins.swBit)) s) ∧
    (¬ case1 → case2 → exec (.handleInterrupt flagged captured) s =
      exec (.onRotation (level s.pins.clkBit) (level s.pins.dtBit)) s) ∧
    (¬ case1 → ¬ case2 → exec (.handleInterrupt flagged captured) s = .next s)

/-- The decision table by the bits of `flagged`, for pins as CONSTRUCT admits them. -/
def Obligations.HandlerDecisionTable : Prop :=
  ∀ (s : State) (flagged captured : Port), s.constructed = true → s.pins.WellFormed →
    let line (n : Nat) : Bit := BitVec.ofBool (captured.getLsbD n)
    let anyRotation := flagged.getLsbD s.pins.clkBit = true ∨ flagged.getLsbD s.pins.dtBit = true
    let switchAlone := s.pins.swPresent = true ∧ ∀ n, n < 16 → (flagged.getLsbD n = true ↔ n = s.pins.swBit)
    (anyRotation → exec (.handleInterrupt flagged captured) s =
      exec (.onRotation (line s.pins.clkBit) (line s.pins.dtBit)) s) ∧
    (switchAlone → exec (.handleInterrupt flagged captured) s = exec (.onButton (line s.pins.swBit)) s) ∧
    (¬ anyRotation → ¬ switchAlone → exec (.handleInterrupt flagged captured) s = .next s)

/-- R135, the priority policy: a pure-switch interrupt is handled as a button event, and one that flags a rotation line
is a pure rotation event whatever else it flags, with `button_state` left as it was and the reports those of the
rotation. -/
def Obligations.RotationHasPriorityOverTheSwitch : Prop :=
  ∀ (s : State) (flagged captured : Port), s.constructed = true → s.pins.WellFormed → s.pins.swPresent = true →
    let level (n : Nat) : Bit := BitVec.ofBool (captured.getLsbD n)
    (flagged = 1#16 <<< s.pins.swBit →
      exec (.handleInterrupt flagged captured) s = exec (.onButton (level s.pins.swBit)) s) ∧
    (flagged.getLsbD s.pins.clkBit = true ∨ flagged.getLsbD s.pins.dtBit = true →
      ∃ t, exec (.handleInterrupt flagged captured) s = .next t ∧
        exec (.onRotation (level s.pins.clkBit) (level s.pins.dtBit)) s = .next t ∧ t.buttonState = s.buttonState)

/-- One call never changes both `button_state` and `quad_state`, nor `button_state` and `value`. -/
def Obligations.HandlerNeverDoesBoth : Prop :=
  ∀ (s t : State) (flagged captured : Port),
    exec (.handleInterrupt flagged captured) s = .next t ∨ exec (.irq flagged captured) s = .next t →
    t.buttonState = s.buttonState ∨ (t.quadState = s.quadState ∧ t.value = s.value)

/-- The bits of `captured` at unconfigured lines are never read (decision D16, log 13). -/
def Obligations.UnconfiguredLinesAreNeverRead : Prop :=
  ∀ (s : State) (flagged c c' : Port),
    c.getLsbD s.pins.clkBit = c'.getLsbD s.pins.clkBit → c.getLsbD s.pins.dtBit = c'.getLsbD s.pins.dtBit →
    (s.pins.swPresent = true → c.getLsbD s.pins.swBit = c'.getLsbD s.pins.swBit) →
    exec (.handleInterrupt flagged c) s = exec (.handleInterrupt flagged c') s ∧
    exec (.irq flagged c) s = exec (.irq flagged c') s

/-- IRQ runs the handler when it is bound and does nothing at all when it is not (decision D17, log 14). -/
def Obligations.DeliveryIsGatedByBound : Prop :=
  ∀ (s : State) (flagged captured : Port), s.constructed = true →
    (∃ t, exec (.irq flagged captured) s = .next t) ∧
    (s.bound = true → exec (.irq flagged captured) s = exec (.handleInterrupt flagged captured) s) ∧
    (s.bound = false → exec (.irq flagged captured) s = .next s)

/-! ### START and STOP: 46_start_stop.md -/

/-- R140: START. -/
def Obligations.StartBindsThenDrains : Prop :=
  ∀ s : State, s.constructed = true →
    exec .start s = .next
      { s with
        bound := true
        trace := s.trace ++ [.irqBind .fallingEdge, .portDiscardRead .interruptCaptured] }

/-- R141: STOP. -/
def Obligations.StopUnbindsThenDrains : Prop :=
  ∀ s : State, s.constructed = true →
    exec .stop s = .next
      { s with
        bound := false
        trace := s.trace ++ [.irqUnbind, .portDiscardRead .interruptCaptured] }

/-- After STOP any number of deliveries changes nothing and reports nothing (decision D17, log 14). -/
def Obligations.DeliveriesAfterStopAreLost : Prop :=
  ∀ (s : State) (inputs : List (Port × Port)), s.constructed = true →
    execAll (.stop :: deliveries inputs) s = exec .stop s

/-- START after STOP resumes from the retained state, the deliveries in between lost (decisions D15 and D17, log 14). -/
def Obligations.StartAfterStopResumes : Prop :=
  ∀ (s : State) (inputs : List (Port × Port)), s.constructed = true → ∃ t,
    execAll (.stop :: (deliveries inputs ++ [.start])) s = .next t ∧
    t.value = s.value ∧ t.quadState = s.quadState ∧ t.buttonState = s.buttonState ∧ t.bound = true

/-! ### The collaborator's contract: 20_memory.md, 40_construct.md (log 16) -/

/-- After CONSTRUCT exactly the configured lines are set in the four registers, whatever they held, every other line
is as it was, and the interrupt line is an input (the mask without a switch is decision D11, log 7; that CONSTRUCT
initialises the line is D12, log 6; that a CONSTRUCT on a live instance does the same and emits no IrqUnbind is D14,
log 5; that the latch and the handler stay as they were under these accesses is log 24). -/
def Obligations.ConstructArmsExactlyTheConfiguredLines : Prop :=
  ∀ (s t : State) (es : List OutEvent) (c : Collaborator), exec .construct s = .next t → t.trace = s.trace ++ es →
    let p := s.cfg.pins
    let c' := c.afterAll es
    (∀ (reg : OrRegister) (n : Nat), n < 16 → (c'.register reg).getLsbD n =
      ((c.register reg).getLsbD n ||
        decide (n = p.clkBit ∨ n = p.dtBit ∨ (p.swPresent = true ∧ n = p.swBit)))) ∧
    c'.lineIsInput = true ∧ c'.handler = c.handler ∧ c'.latch = c.latch

/-- START and STOP leave the latch clear and the four registers as they were; START leaves the handler registered on
falling edges, STOP leaves none, whatever was registered before: for a line already bound, or one with no handler, that
is log 23's choice, and that nothing else changes is log 24's. -/
def Obligations.StartAndStopAtTheCollaborator : Prop :=
  ∀ (s t : State) (es : List OutEvent) (c : Collaborator), t.trace = s.trace ++ es →
    (exec .start s = .next t → c.afterAll es = { c with handler := some .fallingEdge, latch := none }) ∧
    (exec .stop s = .next t → c.afterAll es = { c with handler := none, latch := none })

/-- ON_ROTATION, STEP, ON_BUTTON, HANDLE_INTERRUPT and IRQ make no collaborator access at all. -/
def Obligations.OtherOperationsLeaveTheCollaboratorAlone : Prop :=
  ∀ (i : Instr) (s t : State) (es : List OutEvent) (c : Collaborator),
    i ≠ .construct → i ≠ .start → i ≠ .stop → exec i s = .next t → t.trace = s.trace ++ es →
    c.afterAll es = c ∧ ∀ e ∈ es, e.isSink = true

/-- `bound` mirrors the line's registration through every operation but a further CONSTRUCT. For a START when bound and a
STOP when not, that is log 23's choice. -/
def Obligations.BoundMirrorsTheRegistration : Prop :=
  ∀ (i : Instr) (s t : State) (es : List OutEvent) (c : Collaborator),
    i ≠ .construct → exec i s = .next t → t.trace = s.trace ++ es →
    c.handler = (if s.bound then some .fallingEdge else none) →
    (c.afterAll es).handler = (if t.bound then some .fallingEdge else none)

/-! ### Whole-machine rules: 10_state.md -/

/-- Which operation may change which element: the table of which operation touches which state. -/
def Obligations.OnlyTheTabulatedOperationsWrite : Prop :=
  ∀ (i : Instr) (s t : State), exec i s = .next t →
    let handler := (∃ f c, i = .handleInterrupt f c) ∨ (∃ f c, i = .irq f c ∧ s.bound = true)
    let rotation := ∃ clk dt, i = .onRotation clk dt
    (t.value ≠ s.value → i = .construct ∨ (∃ d, i = .step d) ∨ rotation ∨ handler) ∧
    (t.quadState ≠ s.quadState → i = .construct ∨ rotation ∨ handler) ∧
    (t.buttonState ≠ s.buttonState → i = .construct ∨ (∃ l, i = .onButton l) ∨ handler) ∧
    (t.bound ≠ s.bound → i = .construct ∨ i = .start ∨ i = .stop) ∧
    t.cfg = s.cfg ∧ t.commands = s.commands

/-- R23: `min_val <= value <= max_val` after CONSTRUCT with a well-formed configuration (the first one completes; one on
a live instance is only asked to keep the bounds if it completes, so nothing rests on D14) and after every later
operation; no operation but CONSTRUCT writes `value` otherwise than by the clamped sum of STEP; and over any sequence of
samples `value` stays within the bounds. -/
def Obligations.ValueStaysWithinBounds : Prop :=
  (∀ s : State, s.constructed = false → s.cfg.WellFormed → ∃ t, exec .construct s = .next t ∧ t.InBounds) ∧
  (∀ s t : State, s.cfg.WellFormed → exec .construct s = .next t → t.InBounds) ∧
  (∀ (i : Instr) (s t : State), s.constructed = true → s.InBounds → exec i s = .next t → t.InBounds) ∧
  (∀ (i : Instr) (s t : State), i ≠ .construct → exec i s = .next t →
    t.value = s.value ∨ ∃ d : Direction, t.value = clamp (s.value + d.delta) s.minVal s.maxVal) ∧
  (∀ (samples : List (Bit × Bit)) (s : State), s.constructed = true → s.InBounds →
    ∃ t, execAll (rotations samples) s = .next t ∧ t.InBounds)

/-- The invariant every step keeps: an existing instance holds copies of a well-formed record and its count lies
within the bounds. -/
def Obligations.EveryStepKeepsTheInvariant : Prop :=
  ∀ s t : State, s.Inv → step s = .next t → t.Inv

/-- The invariant holds after reset, with whatever well-formed record (the record of State.reset is log 1's choice). -/
def Obligations.ResetMeetsTheInvariant : Prop :=
  State.reset.Inv ∧ State.reset.TraceAllowed ∧ ∀ c : Config, c.WellFormed → (State.afterConstruct c).Inv

/-- Every step keeps every report in the trace one the configuration allows: none without a callback, and no count
outside the bounds. -/
def Obligations.EveryStepKeepsTheTraceAllowed : Prop :=
  ∀ s t : State, s.Inv → s.TraceAllowed → step s = .next t → t.TraceAllowed

/-- Whatever command words are presented to a freshly constructed instance, and however many steps are run, the count
stays within the configured bounds and so does every reported count. -/
def Obligations.CountAndReportsStayWithinBoundsForever : Prop :=
  ∀ (c : Config) (ws : List CommandWord) (n : Nat) (t : State), c.WellFormed →
    Host.Core.run core n { State.afterConstruct c with commands := ws } = .next t →
    c.minVal ≤ t.value ∧ t.value ≤ c.maxVal ∧
    ∀ v b, .event v b ∈ t.trace → c.cbPresent = true ∧ c.minVal ≤ v ∧ v ≤ c.maxVal
end

