-- ==== Sys2Proof/Laws/Decode.lean ====
section
/-! SUPPORT. The fields of a command word and of an encoded operation, as numbers and as fields of the payload. -/

namespace Sys2Proof

theorem field_toNat (w : CommandWord) (low n : Nat) : (w.extractLsb' low n).toNat = w.toNat / 2 ^ low % 2 ^ n := by
  simp [BitVec.extractLsb'_toNat, Nat.shiftRight_eq_div_pow]

theorem opOf_toNat (w : CommandWord) : (opOf w).toNat = w.toNat / 2 ^ 32 := by
  have := w.isLt
  rw [opOf, field_toNat]
  omega

theorem append_toNat {m n : Nat} (x : BitVec m) (y : BitVec n) : (x ++ y).toNat = x.toNat * 2 ^ n + y.toNat := by
  rw [BitVec.toNat_append, ← Nat.shiftLeft_eq, Nat.shiftLeft_add_eq_or_of_lt y.isLt]

theorem encode_toNat (i : Instr) : (encode i).toNat = i.opcode.toNat * 2 ^ 32 + i.payload.toNat :=
  append_toNat i.opcode i.payload

theorem encode_getLsbD (i : Instr) (k : Nat) :
    (encode i).getLsbD k = if k < 32 then i.payload.getLsbD k else i.opcode.getLsbD (k - 32) :=
  BitVec.getLsbD_append

@[simp] theorem opOf_encode (i : Instr) : opOf (encode i) = i.opcode := by
  apply BitVec.eq_of_getLsbD_eq
  intro k hk
  rw [opOf, BitVec.getLsbD_extractLsb', encode_getLsbD]
  simp [hk]

/-- A field that lies in the payload is a field of the payload. -/
theorem encode_field (i : Instr) {low n : Nat} (h : low + n ≤ 32) :
    (encode i).extractLsb' low n = i.payload.extractLsb' low n := by
  apply BitVec.eq_of_getLsbD_eq
  intro k hk
  rw [BitVec.getLsbD_extractLsb', BitVec.getLsbD_extractLsb', encode_getLsbD, if_pos (by omega)]

theorem withZeroField_ok {w : CommandWord} {low : Nat} {i j : Instr} (h : withZeroField w low i = .ok j) :
    j = i ∧ w.extractLsb' low (32 - low) = 0 := by
  unfold withZeroField at h
  split at h
  · exact ⟨by cases h; rfl, ‹_›⟩
  · cases h

end Sys2Proof
end

