-- ==== Sys2Proof/Laws/State.lean ====
section
/-! SUPPORT. One lemma per field per register write, each true by unfolding, so that no later proof unfolds a record
update. -/

namespace Sys2Proof.Machine

variable (s : State)

/-! ### setValue -/

@[simp] theorem State.setValue_cfg (v : Int) : (s.setValue v).cfg = s.cfg := rfl
@[simp] theorem State.setValue_constructed (v : Int) : (s.setValue v).constructed = s.constructed := rfl
@[simp] theorem State.setValue_value (v : Int) : (s.setValue v).value = v := rfl
@[simp] theorem State.setValue_minVal (v : Int) : (s.setValue v).minVal = s.minVal := rfl
@[simp] theorem State.setValue_maxVal (v : Int) : (s.setValue v).maxVal = s.maxVal := rfl
@[simp] theorem State.setValue_quadState (v : Int) : (s.setValue v).quadState = s.quadState := rfl
@[simp] theorem State.setValue_buttonState (v : Int) : (s.setValue v).buttonState = s.buttonState := rfl
@[simp] theorem State.setValue_bound (v : Int) : (s.setValue v).bound = s.bound := rfl
@[simp] theorem State.setValue_pins (v : Int) : (s.setValue v).pins = s.pins := rfl
@[simp] theorem State.setValue_onChange (v : Int) : (s.setValue v).onChange = s.onChange := rfl
@[simp] theorem State.setValue_trace (v : Int) : (s.setValue v).trace = s.trace := rfl
@[simp] theorem State.setValue_commands (v : Int) : (s.setValue v).commands = s.commands := rfl

/-! ### setQuadState -/

@[simp] theorem State.setQuadState_cfg (q : QuadReg) : (s.setQuadState q).cfg = s.cfg := rfl
@[simp] theorem State.setQuadState_constructed (q : QuadReg) : (s.setQuadState q).constructed = s.constructed := rfl
@[simp] theorem State.setQuadState_value (q : QuadReg) : (s.setQuadState q).value = s.value := rfl
@[simp] theorem State.setQuadState_minVal (q : QuadReg) : (s.setQuadState q).minVal = s.minVal := rfl
@[simp] theorem State.setQuadState_maxVal (q : QuadReg) : (s.setQuadState q).maxVal = s.maxVal := rfl
@[simp] theorem State.setQuadState_quadState (q : QuadReg) : (s.setQuadState q).quadState = q := rfl
@[simp] theorem State.setQuadState_buttonState (q : QuadReg) : (s.setQuadState q).buttonState = s.buttonState := rfl
@[simp] theorem State.setQuadState_bound (q : QuadReg) : (s.setQuadState q).bound = s.bound := rfl
@[simp] theorem State.setQuadState_pins (q : QuadReg) : (s.setQuadState q).pins = s.pins := rfl
@[simp] theorem State.setQuadState_onChange (q : QuadReg) : (s.setQuadState q).onChange = s.onChange := rfl
@[simp] theorem State.setQuadState_trace (q : QuadReg) : (s.setQuadState q).trace = s.trace := rfl
@[simp] theorem State.setQuadState_commands (q : QuadReg) : (s.setQuadState q).commands = s.commands := rfl

/-! ### setButtonState -/

@[simp] theorem State.setButtonState_cfg (l : Bit) : (s.setButtonState l).cfg = s.cfg := rfl
@[simp] theorem State.setButtonState_constructed (l : Bit) : (s.setButtonState l).constructed = s.constructed := rfl
@[simp] theorem State.setButtonState_value (l : Bit) : (s.setButtonState l).value = s.value := rfl
@[simp] theorem State.setButtonState_minVal (l : Bit) : (s.setButtonState l).minVal = s.minVal := rfl
@[simp] theorem State.setButtonState_maxVal (l : Bit) : (s.setButtonState l).maxVal = s.maxVal := rfl
@[simp] theorem State.setButtonState_quadState (l : Bit) : (s.setButtonState l).quadState = s.quadState := rfl
@[simp] theorem State.setButtonState_buttonState (l : Bit) : (s.setButtonState l).buttonState = l := rfl
@[simp] theorem State.setButtonState_bound (l : Bit) : (s.setButtonState l).bound = s.bound := rfl
@[simp] theorem State.setButtonState_pins (l : Bit) : (s.setButtonState l).pins = s.pins := rfl
@[simp] theorem State.setButtonState_onChange (l : Bit) : (s.setButtonState l).onChange = s.onChange := rfl
@[simp] theorem State.setButtonState_trace (l : Bit) : (s.setButtonState l).trace = s.trace := rfl
@[simp] theorem State.setButtonState_commands (l : Bit) : (s.setButtonState l).commands = s.commands := rfl

/-! ### setBound -/

@[simp] theorem State.setBound_cfg (b : Bool) : (s.setBound b).cfg = s.cfg := rfl
@[simp] theorem State.setBound_constructed (b : Bool) : (s.setBound b).constructed = s.constructed := rfl
@[simp] theorem State.setBound_value (b : Bool) : (s.setBound b).value = s.value := rfl
@[simp] theorem State.setBound_minVal (b : Bool) : (s.setBound b).minVal = s.minVal := rfl
@[simp] theorem State.setBound_maxVal (b : Bool) : (s.setBound b).maxVal = s.maxVal := rfl
@[simp] theorem State.setBound_quadState (b : Bool) : (s.setBound b).quadState = s.quadState := rfl
@[simp] theorem State.setBound_buttonState (b : Bool) : (s.setBound b).buttonState = s.buttonState := rfl
@[simp] theorem State.setBound_bound (b : Bool) : (s.setBound b).bound = b := rfl
@[simp] theorem State.setBound_pins (b : Bool) : (s.setBound b).pins = s.pins := rfl
@[simp] theorem State.setBound_onChange (b : Bool) : (s.setBound b).onChange = s.onChange := rfl
@[simp] theorem State.setBound_trace (b : Bool) : (s.setBound b).trace = s.trace := rfl
@[simp] theorem State.setBound_commands (b : Bool) : (s.setBound b).commands = s.commands := rfl

/-! ### emit -/

@[simp] theorem State.emit_cfg (es : List OutEvent) : (s.emit es).cfg = s.cfg := rfl
@[simp] theorem State.emit_constructed (es : List OutEvent) : (s.emit es).constructed = s.constructed := rfl
@[simp] theorem State.emit_value (es : List OutEvent) : (s.emit es).value = s.value := rfl
@[simp] theorem State.emit_minVal (es : List OutEvent) : (s.emit es).minVal = s.minVal := rfl
@[simp] theorem State.emit_maxVal (es : List OutEvent) : (s.emit es).maxVal = s.maxVal := rfl
@[simp] theorem State.emit_quadState (es : List OutEvent) : (s.emit es).quadState = s.quadState := rfl
@[simp] theorem State.emit_buttonState (es : List OutEvent) : (s.emit es).buttonState = s.buttonState := rfl
@[simp] theorem State.emit_bound (es : List OutEvent) : (s.emit es).bound = s.bound := rfl
@[simp] theorem State.emit_pins (es : List OutEvent) : (s.emit es).pins = s.pins := rfl
@[simp] theorem State.emit_onChange (es : List OutEvent) : (s.emit es).onChange = s.onChange := rfl
@[simp] theorem State.emit_trace (es : List OutEvent) : (s.emit es).trace = s.trace ++ es := rfl
@[simp] theorem State.emit_commands (es : List OutEvent) : (s.emit es).commands = s.commands := rfl

/-! ### A register written twice holds the last value -/

@[simp] theorem State.setValue_setValue (v w : Int) : (s.setValue v).setValue w = s.setValue w := rfl
@[simp] theorem State.setQuadState_setQuadState (q r : QuadReg) :
    (s.setQuadState q).setQuadState r = s.setQuadState r := rfl
@[simp] theorem State.setButtonState_setButtonState (l m : Bit) :
    (s.setButtonState l).setButtonState m = s.setButtonState m := rfl
@[simp] theorem State.setBound_setBound (b c : Bool) : (s.setBound b).setBound c = s.setBound c := rfl

/-- Events emitted in two goes are the events emitted in one. -/
@[simp] theorem State.emit_emit (es fs : List OutEvent) : (s.emit es).emit fs = s.emit (es ++ fs) := by
  simp [State.emit]

/-! ### presentCommand -/

@[simp] theorem presentCommand_cfg (w : CommandWord) : (presentCommand s w).cfg = s.cfg := rfl
@[simp] theorem presentCommand_constructed (w : CommandWord) : (presentCommand s w).constructed = s.constructed := rfl
@[simp] theorem presentCommand_value (w : CommandWord) : (presentCommand s w).value = s.value := rfl
@[simp] theorem presentCommand_minVal (w : CommandWord) : (presentCommand s w).minVal = s.minVal := rfl
@[simp] theorem presentCommand_maxVal (w : CommandWord) : (presentCommand s w).maxVal = s.maxVal := rfl
@[simp] theorem presentCommand_quadState (w : CommandWord) : (presentCommand s w).quadState = s.quadState := rfl
@[simp] theorem presentCommand_buttonState (w : CommandWord) : (presentCommand s w).buttonState = s.buttonState := rfl
@[simp] theorem presentCommand_bound (w : CommandWord) : (presentCommand s w).bound = s.bound := rfl
@[simp] theorem presentCommand_pins (w : CommandWord) : (presentCommand s w).pins = s.pins := rfl
@[simp] theorem presentCommand_onChange (w : CommandWord) : (presentCommand s w).onChange = s.onChange := rfl
@[simp] theorem presentCommand_trace (w : CommandWord) : (presentCommand s w).trace = s.trace := rfl
@[simp] theorem presentCommand_commands (w : CommandWord) : (presentCommand s w).commands = w :: s.commands := rfl

end Sys2Proof.Machine
end

