-- ==== Sys2Proof/Laws/Ops.lean ====
section
/-! SUPPORT. What each shared operation can do, said once. -/

namespace Sys2Proof.Machine

variable (s t : State)

/-! ### notify: only the trace changes -/

theorem notify_eq : notify s = s.emit (if s.onChange then [.event s.value s.buttonState] else []) := by
  unfold notify
  split <;> simp [State.emit]

@[simp] theorem notify_cfg : (notify s).cfg = s.cfg := by rw [notify_eq]; rfl
@[simp] theorem notify_constructed : (notify s).constructed = s.constructed := by rw [notify_eq]; rfl
@[simp] theorem notify_value : (notify s).value = s.value := by rw [notify_eq]; rfl
@[simp] theorem notify_minVal : (notify s).minVal = s.minVal := by rw [notify_eq]; rfl
@[simp] theorem notify_maxVal : (notify s).maxVal = s.maxVal := by rw [notify_eq]; rfl
@[simp] theorem notify_quadState : (notify s).quadState = s.quadState := by rw [notify_eq]; rfl
@[simp] theorem notify_buttonState : (notify s).buttonState = s.buttonState := by rw [notify_eq]; rfl
@[simp] theorem notify_bound : (notify s).bound = s.bound := by rw [notify_eq]; rfl
@[simp] theorem notify_pins : (notify s).pins = s.pins := by rw [notify_eq]; rfl
@[simp] theorem notify_onChange : (notify s).onChange = s.onChange := by rw [notify_eq]; rfl
@[simp] theorem notify_commands : (notify s).commands = s.commands := by rw [notify_eq]; rfl
@[simp] theorem notify_trace :
    (notify s).trace = s.trace ++ if s.onChange then [.event s.value s.buttonState] else [] := by
  rw [notify_eq]; rfl

/-! ### onInstance -/

theorem onInstance_of_constructed {f : State → State} (h : s.constructed = true) : onInstance f s = .next (f s) := by
  simp [onInstance, h]

theorem onInstance_of_absent {f : State → State} (h : s.constructed = false) :
    onInstance f s = .refused .noSuchInstance := by
  simp [onInstance, h]

theorem onInstance_next {f : State → State} {s t : State} (h : onInstance f s = .next t) :
    s.constructed = true ∧ t = f s := by
  unfold onInstance at h
  split at h
  · exact ⟨‹_›, by cases h; rfl⟩
  · cases h

/-- An operation of an existing instance never faults. -/
theorem onInstance_ne_fault {f : State → State} {r : Fault} : onInstance f s ≠ .fault r := by
  unfold onInstance
  split <;> exact nofun

/-! ### The command stream -/

theorem takeCommand_nil (h : s.commands = []) : takeCommand s = none := by
  simp [takeCommand, h]

theorem takeCommand_cons {w : CommandWord} {rest : List CommandWord} (h : s.commands = w :: rest) :
    takeCommand s = some (w, { s with commands := rest }) := by
  simp [takeCommand, h]

/-- A presented word is the next one taken, and taking it gives the stream back as it was. -/
theorem takeCommand_presentCommand (w : CommandWord) : takeCommand (presentCommand s w) = some (w, s) := rfl

end Sys2Proof.Machine
end

