-- ==== Sys2Proof/Laws/Meanings.lean ====
section
/-! SUPPORT. What each procedure of an operation can do, said once: its result as an explicit state, its frame, and
the inversion of exec. -/

namespace Sys2Proof.Machine

variable (s t : State)

/-! ### Counter -/

theorem clamp_mem {x lo hi : Int} (h : lo ≤ hi) : lo ≤ clamp x lo hi ∧ clamp x lo hi ≤ hi := by
  unfold clamp
  split
  · omega
  · split <;> omega

/-- The three cases of clamp, in a form linear arithmetic can use. -/
theorem clamp_cases (x lo hi : Int) :
    (x < lo ∧ clamp x lo hi = lo) ∨ (lo ≤ x ∧ hi < x ∧ clamp x lo hi = hi) ∨ (lo ≤ x ∧ x ≤ hi ∧ clamp x lo hi = x) := by
  unfold clamp
  split
  · exact .inl ⟨‹_›, rfl⟩
  · split
    · exact .inr (.inl ⟨by omega, by omega, rfl⟩)
    · exact .inr (.inr ⟨by omega, by omega, rfl⟩)

/-- The explicit result of Step: the count and the trace, nothing else. -/
theorem stepCounter_eq (d : Direction) :
    stepCounter d s =
      { s with
        value := clamp (s.value + d.delta) s.minVal s.maxVal
        trace := s.trace ++
          if s.onChange then [.event (clamp (s.value + d.delta) s.minVal s.maxVal) s.buttonState] else [] } := by
  unfold stepCounter
  rw [notify_eq]
  rfl

/-! ### Quadrature -/

/-- A rotation is a Step over the shifted register on a terminal code, else the shifted register alone. -/
theorem rotate_cases (clk dt : Bit) :
    (∃ d q, rotate clk dt s = stepCounter d (s.setQuadState q)) ∨ (∃ q, rotate clk dt s = s.setQuadState q) := by
  unfold rotate
  dsimp only
  split
  · exact .inl ⟨_, _, rfl⟩
  · exact .inr ⟨_, rfl⟩

theorem rotate_of_decrement {clk dt : Bit} (h : shiftSample s.quadState (sample clk dt) = decrementCode) :
    rotate clk dt s = stepCounter .dec (s.setQuadState decrementCode) := by
  simp [rotate, h, terminalStep]

theorem rotate_of_increment {clk dt : Bit} (h : shiftSample s.quadState (sample clk dt) = incrementCode) :
    rotate clk dt s = stepCounter .inc (s.setQuadState incrementCode) := by
  simp [rotate, h, terminalStep, incrementCode, decrementCode]

theorem rotate_of_other {clk dt : Bit} (hd : shiftSample s.quadState (sample clk dt) ≠ decrementCode)
    (hi : shiftSample s.quadState (sample clk dt) ≠ incrementCode) :
    rotate clk dt s = s.setQuadState (shiftSample s.quadState (sample clk dt)) := by
  simp [rotate, hd, hi, terminalStep]

@[simp] theorem rotate_quadState (clk dt : Bit) :
    (rotate clk dt s).quadState = shiftSample s.quadState (sample clk dt) := by
  unfold rotate
  dsimp only
  split <;> simp [stepCounter_eq]

/-! ### Dispatch -/

/-- The handler reports the button, or takes a rotation sample, or does nothing. -/
theorem handleInterrupt_cases (flagged captured : Port) :
    (s.pins.swPresent = true ∧ handleInterrupt flagged captured s = reportButton (lineLevel captured s.pins.swBit) s) ∨
    (handleInterrupt flagged captured s =
      rotate (lineLevel captured s.pins.clkBit) (lineLevel captured s.pins.dtBit) s) ∨
    handleInterrupt flagged captured s = s := by
  unfold handleInterrupt
  split
  · exact .inl ⟨And.left ‹_›, rfl⟩
  · split
    · exact .inr (.inl rfl)
    · exact .inr (.inr rfl)

theorem handleInterrupt_of_switchAlone {flagged captured : Port}
    (h : s.pins.swPresent = true ∧ flagged = switchMask s.pins) :
    handleInterrupt flagged captured s = reportButton (lineLevel captured s.pins.swBit) s := if_pos h

theorem handleInterrupt_of_rotation {flagged captured : Port}
    (h : ¬ (s.pins.swPresent = true ∧ flagged = switchMask s.pins)) (hr : flagged &&& rotationMask s.pins ≠ 0#16) :
    handleInterrupt flagged captured s =
      rotate (lineLevel captured s.pins.clkBit) (lineLevel captured s.pins.dtBit) s :=
  (if_neg h).trans (if_pos hr)

theorem handleInterrupt_of_neither {flagged captured : Port}
    (h : ¬ (s.pins.swPresent = true ∧ flagged = switchMask s.pins)) (hr : ¬ flagged &&& rotationMask s.pins ≠ 0#16) :
    handleInterrupt flagged captured s = s :=
  (if_neg h).trans (if_neg hr)

/-- A delivery is the handler's run when it is bound, else nothing. -/
theorem deliverInterrupt_cases (flagged captured : Port) :
    (s.bound = true ∧ deliverInterrupt flagged captured s = handleInterrupt flagged captured s) ∨
    (s.bound = false ∧ deliverInterrupt flagged captured s = s) := by
  cases h : s.bound <;> simp [deliverInterrupt, h]

/-! ### exec -/

/-- The state an operation of an existing instance makes. -/
def procedure : Instr → State → State
  | .construct,           s => (loadConfig s).emit (constructionEvents (armedMask s.cfg.pins))
  | .onRotation clk dt,   s => rotate clk dt s
  | .step d,              s => stepCounter d s
  | .onButton level,      s => reportButton level s
  | .handleInterrupt f c, s => handleInterrupt f c s
  | .start,               s => bindHandler s
  | .stop,                s => unbindHandler s
  | .irq f c,             s => deliverInterrupt f c s

/-- Every operation but CONSTRUCT is its procedure run on an existing instance. -/
theorem exec_of_ne_construct {i : Instr} (h : i ≠ .construct) : exec i s = onInstance (procedure i) s := by
  cases i <;> first | rfl | exact absurd rfl h

/-- The inversion of exec: a next state comes from CONSTRUCT of a record that passes the check, or from the procedure of
another operation on an existing instance. -/
theorem exec_next {i : Instr} {s t : State} (h : exec i s = .next t) :
    t = procedure i s ∧
      ((i = .construct ∧ checkConfig s.cfg = none) ∨ (i ≠ .construct ∧ s.constructed = true)) := by
  by_cases hi : i = .construct
  · subst hi
    simp only [exec, execConstruct] at h
    split at h
    · cases h
    · cases h
      exact ⟨rfl, .inl ⟨rfl, ‹_›⟩⟩
  · rw [exec_of_ne_construct s hi] at h
    obtain ⟨hc, rfl⟩ := onInstance_next h
    exact ⟨rfl, .inr ⟨hi, hc⟩⟩

end Sys2Proof.Machine
end

