-- ==== Sys2Proof/Laws/PerInstr.lean ====
section
/-! SUPPORT. Per-operation facts about the syntax: the family Encoding says that the encoding of an operation carries its
row's operation code, is a legal word, and that its row stands in the opcode table under its mnemonic. -/

namespace Sys2Proof.Laws.Encoding

def Statement (i : Instr) : Prop :=
  opOf (encode i) = i.opcode ∧ LegalWord (encode i) ∧
    ∃ r ∈ opcodeTable, r.mnemonic = i.mnemonic ∧ opOf r.matchBits = i.opcode

/-- The encoding is legal when its operation code is assigned and its payload lies below the format's zero field. -/
theorem legal_of_payload {i : Instr} (hop : assignedOp i.opcode) (hp : i.payload.toNat < 2 ^ zeroFieldLow i.opcode) :
    LegalWord (encode i) := by
  unfold LegalWord
  rw [show (encode i).extractLsb' 32 4 = i.opcode from opOf_encode i, encode_field i (by omega)]
  refine ⟨hop, ?_⟩
  have := i.payload.isLt
  simpa [BitVec.extractLsb'_toNat, Nat.mod_eq_of_lt this] using hp

theorem construct : Statement .construct :=
  ⟨opOf_encode _, legal_of_payload (by decide) (by decide), by decide⟩

theorem onRotation (clk dt : Bit) : Statement (.onRotation clk dt) :=
  ⟨opOf_encode _, legal_of_payload (i := .onRotation clk dt) (by simp only [Instr.opcode]; decide) (by revert clk dt; decide), by
    simp only [Instr.mnemonic, Instr.opcode]; decide⟩

theorem step (d : Direction) : Statement (.step d) :=
  ⟨opOf_encode _, legal_of_payload (i := .step d) (by simp only [Instr.opcode]; decide) (by cases d <;> decide), by
    simp only [Instr.mnemonic, Instr.opcode]; decide⟩

theorem onButton (level : Bit) : Statement (.onButton level) :=
  ⟨opOf_encode _, legal_of_payload (i := .onButton level) (by simp only [Instr.opcode]; decide) (by revert level; decide), by
    simp only [Instr.mnemonic, Instr.opcode]; decide⟩

theorem handleInterrupt (flagged captured : Port) : Statement (.handleInterrupt flagged captured) :=
  ⟨opOf_encode _, legal_of_payload (i := .handleInterrupt flagged captured) (by simp only [Instr.opcode]; decide)
    (Instr.payload _).isLt, by simp only [Instr.mnemonic, Instr.opcode]; decide⟩

theorem start : Statement .start :=
  ⟨opOf_encode _, legal_of_payload (by decide) (by decide), by decide⟩

theorem stop : Statement .stop :=
  ⟨opOf_encode _, legal_of_payload (by decide) (by decide), by decide⟩

theorem irq (flagged captured : Port) : Statement (.irq flagged captured) :=
  ⟨opOf_encode _, legal_of_payload (i := .irq flagged captured) (by simp only [Instr.opcode]; decide)
    (Instr.payload _).isLt, by simp only [Instr.mnemonic, Instr.opcode]; decide⟩

end Sys2Proof.Laws.Encoding
end

