-- ==== Sys2Proof/Tests/Slice0.lean ====
section
/-! SUPPORT. Tests. Expected results come from spec/: the vectors V-A to V-G and S1 to S7 of 95_test_vectors.md, the bit
tables of 30_encoding.md, the worked examples of the rules. The last part shows, for every statement that has
hypotheses, a concrete state and operands that meet them. -/

namespace Sys2Proof.Tests

open Sys2Proof.Machine

/-- The configurations B, C and D of 95_test_vectors.md (A is Config.reference). -/
def configB : Config := { Config.reference with initVal := 0 }
def configC : Config :=
  { pins := { clkBit := 0, dtBit := 1, swPresent := false, swBit := 0 }, initVal := 9, minVal := -3, maxVal := 10,
    cbPresent := false }
def configD : Config :=
  { pins := { clkBit := 15, dtBit := 0, swPresent := true, swBit := 8 }, initVal := 7, minVal := 7, maxVal := 7,
    cbPresent := true }

/-- A live instance under a configuration, written `value / quad_state / button_state / bound` as in
95_test_vectors.md, with an empty trace. -/
def live (c : Config) (value : Int) (quadState : QuadReg) (buttonState : Bit) (bound : Bool) : State :=
  { State.afterConstruct c with value, quadState, buttonState, bound, trace := [] }

/-- The state an operation ends in; the old state if it ends in none. -/
def after (i : Instr) (s : State) : State :=
  match exec i s with
  | .next t => t
  | _       => s

/-- A state as the vectors write it, with its trace. -/
structure Shown where
  value       : Int
  quadState   : QuadReg
  buttonState : Bit
  bound       : Bool
  trace       : List OutEvent
  deriving DecidableEq, Repr

/-- What the vectors show of a state. -/
def shown (s : State) : Shown := ⟨s.value, s.quadState, s.buttonState, s.bound, s.trace⟩

/-! ### Well-formedness: each check refuses an ill-formed term (R10, R66) -/

theorem test_configs_wellFormed :
    Config.reference.WellFormed ∧ configB.WellFormed ∧ configC.WellFormed ∧ configD.WellFormed := by decide
theorem test_init_below_min : ¬ { Config.reference with initVal := -1 : Config }.WellFormed := by decide
theorem test_init_above_max : ¬ { Config.reference with initVal := 11 : Config }.WellFormed := by decide
theorem test_clk_outside : ¬ { clkBit := 16, dtBit := 6, swPresent := true, swBit := 5 : PinAssignment }.WellFormed := by decide
theorem test_dt_outside : ¬ { clkBit := 7, dtBit := 16, swPresent := true, swBit := 5 : PinAssignment }.WellFormed := by decide
theorem test_clk_dt_equal : ¬ { clkBit := 7, dtBit := 7, swPresent := true, swBit := 5 : PinAssignment }.WellFormed := by decide
theorem test_sw_outside : ¬ { clkBit := 7, dtBit := 6, swPresent := true, swBit := 16 : PinAssignment }.WellFormed := by decide
theorem test_sw_on_clk : ¬ { clkBit := 7, dtBit := 6, swPresent := true, swBit := 7 : PinAssignment }.WellFormed := by decide
theorem test_sw_on_dt : ¬ { clkBit := 7, dtBit := 6, swPresent := true, swBit := 6 : PinAssignment }.WellFormed := by decide
theorem test_absent_sw_unchecked : { clkBit := 0, dtBit := 1, swPresent := false, swBit := 0 : PinAssignment }.WellFormed := by
  decide
theorem test_reserved_ops_illegal :
    ¬ LegalWord 0x000000000#36 ∧ ¬ LegalWord 0x500000000#36 ∧ ¬ LegalWord 0xA00000000#36 ∧ ¬ LegalWord 0xF00000000#36 := by decide
theorem test_nonzero_fields_illegal :
    ¬ LegalWord 0x100000001#36 ∧ ¬ LegalWord 0x200000004#36 ∧ ¬ LegalWord 0x300000002#36 ∧ ¬ LegalWord 0x400010000#36 ∧
      ¬ LegalWord 0x780000000#36 ∧ ¬ LegalWord 0x800000100#36 := by decide

/-! ### Decoding: words written out from the bit tables of R63 and the vectors -/

theorem test_decode_construct : decode 0x100000000#36 = .ok .construct := by decide
theorem test_decode_onRotation : decode 0x200000002#36 = .ok (.onRotation 1 0) := by decide
theorem test_decode_onRotation_dt : decode 0x200000001#36 = .ok (.onRotation 0 1) := by decide
theorem test_decode_step_inc : decode 0x300000000#36 = .ok (.step .inc) := by decide
theorem test_decode_step_dec : decode 0x300000001#36 = .ok (.step .dec) := by decide
theorem test_decode_onButton : decode 0x400000001#36 = .ok (.onButton 1) := by decide
theorem test_decode_handleInterrupt : decode 0x60020FFDF#36 = .ok (.handleInterrupt 0x0020 0xFFDF) := by decide
theorem test_decode_start : decode 0x700000000#36 = .ok .start := by decide
theorem test_decode_stop : decode 0x800000000#36 = .ok .stop := by decide
theorem test_decode_irq : decode 0x9004000C0#36 = .ok (.irq 0x0040 0x00C0) := by decide
theorem test_decode_full_payload : decode 0x9FFFFFFFF#36 = .ok (.irq 0xFFFF 0xFFFF) := by decide

/-- V-G1 to V-G4. -/
theorem test_decode_reserved :
    decode 0x000000000#36 = .error (.reservedOp 0x0) ∧ decode 0x500000000#36 = .error (.reservedOp 0x5) ∧
    decode 0xA00000000#36 = .error (.reservedOp 0xA) ∧ decode 0xF00000000#36 = .error (.reservedOp 0xF) := by decide

/-- V-G5 to V-G10. -/
theorem test_decode_nonzero :
    decode 0x100000001#36 = .error (.nonzeroField 0x1) ∧ decode 0x200000004#36 = .error (.nonzeroField 0x2) ∧
    decode 0x300000002#36 = .error (.nonzeroField 0x3) ∧ decode 0x400010000#36 = .error (.nonzeroField 0x4) ∧
    decode 0x780000000#36 = .error (.nonzeroField 0x7) ∧ decode 0x800000100#36 = .error (.nonzeroField 0x8) := by decide

/-- No two rows of the table accept the same word. -/
theorem test_table_rows_disjoint :
    opcodeTable.Pairwise fun r q => r.matchBits &&& (r.mask &&& q.mask) ≠ q.matchBits &&& (r.mask &&& q.mask) := by decide

theorem test_decodeTableWord : decodeTableWord 40 0x300000001 = some (.step .dec) ∧ decodeTableWord 40 0x1100000000 = none := by
  decide

/-! ### The assembler spelling (R73, R74) -/

theorem test_line_with_comment :
    parseLine "  IRQ 0x0040, 0x00C0 ; dt rose: (1,1)".toList = some [.irq 0x0040 0x00C0] := by decide
theorem test_comment_line : parseLine "; nothing".toList = some [] := by decide
theorem test_pseudo_line :
    parseLine "ROT_DEC".toList =
      some [.onRotation 1 0, .onRotation 1 1, .onRotation 0 1, .onRotation 0 0] := by decide
theorem test_program :
    parseProgram ["CONSTRUCT".toList, "STEP -1 ; clamped again".toList, "ON_BUTTON 1".toList] =
      some [.construct, .step .dec, .onButton 1] := by decide
theorem test_bad_operand : parseLine "STEP 2".toList = none := by decide
theorem test_config_list :
    parseConfig Config.reference
      ("CLK_BIT = 0, DT_BIT = 1, SW_PRESENT = 0, SW_BIT = 0, INIT_VAL = 9, MIN_VAL = -3, MAX_VAL = 10, " ++
        "CB_PRESENT = 0").toList = some configC := by decide

/-! ### One step per operation -/

/-- V-A1. -/
theorem test_construct :
    shown (after .construct (State.beforeConstruct Config.reference)) =
      ⟨5, 0, 0, false, [.portOr .mode 0x00E0, .portOr .pullup 0x00E0, .portOr .inputPolarity 0x00E0,
        .portOr .interruptEnable 0x00E0, .lineInit .input]⟩ := by decide
/-- V-A2 and V-A3: the masks without a switch and at the ends of the port. -/
theorem test_armed_masks : armedMask configC.pins = 0x0003 ∧ armedMask configD.pins = 0x8101 := by decide
/-- V-A4 to V-A11. -/
theorem test_config_causes :
    checkConfig { Config.reference with minVal := 10, maxVal := 0 } = some .boundsInverted ∧
    checkConfig { Config.reference with initVal := 11 } = some .initOutsideBounds ∧
    checkConfig { Config.reference with pins := { Config.reference.pins with clkBit := 16 } } = some .pinOutsidePort ∧
    checkConfig { Config.reference with pins := { Config.reference.pins with swBit := 6 } } = some .pinsOverlap ∧
    checkConfig configC = none ∧
    checkConfig { Config.reference with minVal := 10, maxVal := 0, pins := { Config.reference.pins with dtBit := 7 } } =
      some .boundsInverted := by decide
/-- The causes' codes of R150. -/
theorem test_config_codes :
    [ConfigCause.boundsInverted, .initOutsideBounds, .pinOutsidePort, .pinsOverlap].map ConfigCause.code = [1, 2, 3, 4] := by
  decide

/-- V-B8 and V-B15. -/
theorem test_rotation_steps :
    shown (after (.onRotation 0 0) (live Config.reference 5 45 0 false)) = ⟨4, 180, 0, false, [.event 4 0]⟩ ∧
    shown (after (.onRotation 0 0) (live Config.reference 5 30 0 false)) = ⟨6, 120, 0, false, [.event 6 0]⟩ := by decide
/-- V-B6, V-B7, V-B13 and V-B20. -/
theorem test_rotation_silent :
    shown (after (.onRotation 0 0) (live Config.reference 5 64 0 false)) = ⟨5, 0, 0, false, []⟩ ∧
    shown (after (.onRotation 0 1) (live Config.reference 5 192 0 false)) = ⟨5, 1, 0, false, []⟩ ∧
    shown (after (.onRotation 1 0) (live Config.reference 5 45 0 false)) = ⟨5, 182, 0, false, []⟩ ∧
    shown (after (.onRotation 0 0) (live Config.reference 5 180 0 false)) = ⟨5, 208, 0, false, []⟩ := by decide

/-- V-C3, V-C4, V-C8 and V-C12. -/
theorem test_step :
    shown (after (.step .inc) (live Config.reference 10 0 0 false)) = ⟨10, 0, 0, false, [.event 10 0]⟩ ∧
    shown (after (.step .dec) (live Config.reference 0 0 0 false)) = ⟨0, 0, 0, false, [.event 0 0]⟩ ∧
    (after (.step .dec) (live configC (-3) 0 0 false)).value = -3 ∧
    shown (after (.step .dec) (live Config.reference 5 0 1 false)) = ⟨4, 0, 1, false, [.event 4 1]⟩ := by decide
/-- V-C11: no callback; V-C13 and V-C14: eight bits. -/
theorem test_step_silent_and_narrow :
    shown (after (.step .inc) (live configC 5 0 0 false)) = ⟨6, 0, 0, false, []⟩ ∧
    narrowStep .inc 127#8 (BitVec.ofInt 8 (-128)) 127#8 = 127#8 ∧
    wideStep .dec (BitVec.ofInt 8 (-128)) (BitVec.ofInt 8 (-128)) 127#8 = BitVec.ofInt 8 (-128) := by decide

/-- V-D1, V-D3 and V-D5. -/
theorem test_button :
    shown (after (.onButton 1) (live Config.reference 5 0 0 false)) = ⟨5, 0, 1, false, [.event 5 1]⟩ ∧
    shown (after (.onButton 1) (live Config.reference 5 0 1 false)) = ⟨5, 0, 1, false, [.event 5 1]⟩ ∧
    shown (after (.onButton 1) (live configC 5 0 0 false)) = ⟨5, 0, 1, false, []⟩ := by decide

/-- V-E1, V-E2, V-E6, V-E8 and V-E11. -/
theorem test_handleInterrupt :
    shown (after (.handleInterrupt 0x0020 0x0020) (live Config.reference 5 0 0 false)) = ⟨5, 0, 1, false, [.event 5 1]⟩ ∧
    shown (after (.handleInterrupt 0x0020 0xFFDF) (live Config.reference 5 0 0 false)) = ⟨5, 0, 0, false, [.event 5 0]⟩ ∧
    shown (after (.handleInterrupt 0x00A0 0x00A0) (live Config.reference 5 0 0 false)) = ⟨5, 2, 0, false, []⟩ ∧
    shown (after (.handleInterrupt 0x0021 0x0021) (live Config.reference 5 0 0 false)) = ⟨5, 0, 0, false, []⟩ ∧
    shown (after (.handleInterrupt 0xFF1F 0xFFFF) (live Config.reference 5 0 0 false)) = ⟨5, 0, 0, false, []⟩ := by decide
/-- V-E17 to V-E19: no switch, and clk and dt told apart. -/
theorem test_handleInterrupt_no_switch :
    shown (after (.handleInterrupt 0x0020 0x0020) (live configC 9 0 0 false)) = ⟨9, 0, 0, false, []⟩ ∧
    shown (after (.handleInterrupt 0x0002 0x0002) (live configC 9 0 0 false)) = ⟨9, 1, 0, false, []⟩ ∧
    shown (after (.handleInterrupt 0x0001 0x0001) (live configC 9 0 0 false)) = ⟨9, 2, 0, false, []⟩ := by decide

/-- V-E13 and V-E14. -/
theorem test_irq :
    shown (after (.irq 0x0020 0x0020) (live Config.reference 5 0 0 false)) = ⟨5, 0, 0, false, []⟩ ∧
    shown (after (.irq 0x0020 0x0020) (live Config.reference 5 0 0 true)) = ⟨5, 0, 1, true, [.event 5 1]⟩ := by decide

/-- V-F1 and V-F2. -/
theorem test_start :
    shown (after .start (live Config.reference 5 45 1 false)) =
      ⟨5, 45, 1, true, [.irqBind .fallingEdge, .portDiscardRead .interruptCaptured]⟩ ∧
    shown (after .start (live Config.reference 5 45 1 true)) =
      ⟨5, 45, 1, true, [.irqBind .fallingEdge, .portDiscardRead .interruptCaptured]⟩ := by decide
/-- V-F3. -/
theorem test_stop :
    shown (after .stop (live Config.reference 5 45 1 true)) =
      ⟨5, 45, 1, false, [.irqUnbind, .portDiscardRead .interruptCaptured]⟩ := by decide

/-! ### Hypotheses of the statements are met -/

/-- The empty collaborator. -/
def blankCollaborator : Collaborator :=
  { mode := 0, pullup := 0, inputPolarity := 0, interruptEnable := 0, latch := some ⟨0x0020, 0x0020⟩, lineIsInput := false,
    handler := none }

/-- A live instance, bound, with the first command of a stream. -/
def ready : State := { live Config.reference 5 45 0 true with commands := [0x200000000#36, 0x800000000#36] }

theorem witness_DecodedWordIsItsEncoding : decode 0x300000001#36 = .ok (.step .dec) := by decide
theorem witness_StepRunsTheDecodedCommand :
    ready.commands = 0x200000000#36 :: [0x800000000#36] ∧ decode 0x200000000#36 = .ok (.onRotation 0 0) := by decide
theorem witness_IllegalWordIsRefused :
    { ready with commands := [0xA00000000#36] : State }.commands = 0xA00000000#36 :: [] ∧
    ¬ assignedOp ((0xA00000000#36).extractLsb' 32 4) ∧
    { ready with commands := [0x900000000#36] : State }.commands = 0x900000000#36 :: [] ∧
    assignedOp ((0x900000000#36).extractLsb' 32 4) := by decide
theorem witness_IllegalWordIsRefused_zeroField :
    { ready with commands := [0x200000004#36] : State }.commands = 0x200000004#36 :: [] ∧
    assignedOp ((0x200000004#36).extractLsb' 32 4) ∧ ¬ LegalWord 0x200000004#36 := by decide
theorem witness_IdleBlockHoldsItsState : State.reset.commands = [] := by decide
theorem witness_PresentedWordRunsNext : decodeTableWord 40 0x900200020 = some (.irq 0x0020 0x0020) := by decide
theorem witness_CommandStreamRunsInOrder :
    ready.commands = [Instr.onRotation 0 0].map encode ++ [0x800000000#36] := by decide
theorem witness_ConstructLoadsConfigAndArmsLines :
    (State.beforeConstruct configC).cfg.WellFormed ∧ (State.beforeConstruct configD).cfg.WellFormed := by decide
theorem witness_FirstConstructWhateverTheEventOrder :
    (State.beforeConstruct configD).constructed = false ∧ (State.beforeConstruct configD).cfg.WellFormed := by decide
theorem witness_SameMaskGoesToAllFourRegisters :
    (State.beforeConstruct configD).constructed = false ∧
    exec .construct (State.beforeConstruct configD) = .next (State.afterConstruct configD) ∧
    (State.afterConstruct configD).trace = (State.beforeConstruct configD).trace ++ constructionEvents 0x8101 ∧
    (State.beforeConstruct configD).cfg.pins.swPresent = true := ⟨rfl, rfl, rfl, rfl⟩
/-- The four causes at the boundary: bounds inverted by one, start one outside, index 16, two indices equal. -/
theorem witness_IllFormedConfigurationFaults :
    (0 : Int) < 1 ∧ ((11 : Int) < 0 ∨ (10 : Int) < 11) ∧ ((0 : Int) ≤ 10 ∧ (15 < 16 ∨ 15 < 6 ∨ (true = true ∧ 15 < 5))) ∧
    (¬ (15 < 15 ∨ 15 < 15 ∨ (true = true ∧ 15 < 5)) ∧ 15 = 15) := by decide
theorem witness_NoOtherOperationCanFault :
    exec .construct (State.beforeConstruct { Config.reference with initVal := 11 }) =
      .fault (.configViolation .initOutsideBounds) ∧
    Instr.stop ≠ .construct ∧ ready.constructed = true := ⟨rfl, nofun, rfl⟩
theorem witness_NoInstanceNoOperation :
    Instr.irq 0x0020 0x0020 ≠ .construct ∧ (State.beforeConstruct configC).constructed = false := by decide
theorem witness_ResetIsTheFirstConstruct : configC.WellFormed := by decide
theorem witness_ConfigurationIsFixedForLife :
    Instr.step .inc ≠ .construct ∧ exec (.step .inc) ready = .next (after (.step .inc) ready) := ⟨nofun, rfl⟩
theorem witness_StepStoresClampedSumThenNotifies :
    ready.constructed = true ∧
    ((ready.quadState &&& 0x3F#8) <<< 2) ||| ((0 : Bit).setWidth 8 <<< 1) ||| (0 : Bit).setWidth 8 = 180 ∧
    (((live configC 9 30 0 false).quadState &&& 0x3F#8) <<< 2) ||| ((0 : Bit).setWidth 8 <<< 1) ||| (0 : Bit).setWidth 8 =
      120 := by decide
theorem witness_ClampIsTheThreeCaseFunction :
    (0 : Int) ≤ 10 ∧ (-1 : Int) < 0 ∧ (10 : Int) < 11 ∧ (0 : Int) ≤ 10 ∧ (10 : Int) ≤ 10 := by decide
theorem witness_StepSaturatesAtTheBounds :
    (live configD 7 0 0 false).constructed = true ∧ (live configD 7 0 0 false).InBounds ∧
    (live Config.reference 10 0 0 false).InBounds ∧ (live Config.reference 0 0 0 false).InBounds := by decide
theorem witness_LostStepsAreNotRemembered :
    (live Config.reference 10 0 0 false).constructed = true ∧
    (live Config.reference 10 0 0 false).minVal < (live Config.reference 10 0 0 false).maxVal ∧
    (live Config.reference 10 0 0 false).value = (live Config.reference 10 0 0 false).maxVal ∧
    (live Config.reference 0 0 0 false).value = (live Config.reference 0 0 0 false).minVal := by decide
theorem witness_FiniteWidthStepIsTheIntegerStep :
    1 ≤ 8 ∧ (BitVec.ofInt 8 (-128)).toInt ≤ (127#8).toInt ∧ (127#8).toInt ≤ (127#8).toInt := by decide
theorem witness_RotationShiftsAndStepsOnTerminalCodes :
    ready.constructed = true ∧
    ((ready.quadState &&& 0x3F#8) <<< 2) ||| ((0 : Bit).setWidth 8 <<< 1) ||| (0 : Bit).setWidth 8 = 180 ∧
    ((94#8 &&& 0x3F#8) <<< 2) ||| ((0 : Bit).setWidth 8 <<< 1) ||| (0 : Bit).setWidth 8 = 120 ∧
    ((ready.quadState &&& 0x3F#8) <<< 2) ||| ((0 : Bit).setWidth 8 <<< 1) ||| (1 : Bit).setWidth 8 = 181 := by decide
theorem witness_StepsExactlyFromTheEightPairs :
    ready.constructed = true ∧ ready.quadState &&& 0x3F = 45 ∧ (222#8 : QuadReg) &&& 0x3F = 30 ∧
    ¬ ((222#8 : QuadReg) &&& 0x3F = 45) ∧ ¬ ((1 : Bit) = 0) := by decide
theorem witness_RegisterHoldsTheLastFourSamples : State.reset.constructed = true := by decide
theorem witness_EveryRegisterValueIsReachable : State.reset.constructed = true := by decide
theorem witness_StepsAreFourCallsApart :
    (live configC 9 180 0 false).quadState = 180 ∧ 1 ≤ [((0 : Bit), (0 : Bit))].length ∧ [((0 : Bit), (0 : Bit))].length ≤ 3 ∧
    execAll (rotations [((0 : Bit), (0 : Bit))]) (live configC 9 180 0 false) =
      .next (after (.onRotation 0 0) (live configC 9 180 0 false)) := ⟨rfl, by decide, by decide, rfl⟩
theorem witness_RotationWindowsStepExactlyOnce : ready.constructed = true := by decide
theorem witness_MisprintedWindowDoesNotStep : State.reset.constructed = true ∧ State.reset.quadState = 0 := by decide
theorem witness_ButtonStoresLevelThenNotifies : ready.constructed = true := by decide
theorem witness_NotifyReportsWhenCallbackConfigured :
    ready.onChange = true ∧ (live configC 9 0 0 false).onChange = false := by decide
theorem witness_EachOperationReportsAsTabulated :
    exec (.irq 0x0040 0x0000) ready = .next (after (.irq 0x0040 0x0000) ready) ∧
    (after (.irq 0x0040 0x0000) ready).onChange = true ∧ (live configC 9 0 0 false).onChange = false ∧
    exec (.step .inc) (live configC 9 0 0 false) = .next (after (.step .inc) (live configC 9 0 0 false)) :=
  ⟨rfl, rfl, rfl, rfl⟩
theorem witness_ReportsCarryTheNewValues :
    ready.Inv ∧ exec (.irq 0x0040 0x0000) ready = .next (after (.irq 0x0040 0x0000) ready) ∧
    (after (.irq 0x0040 0x0000) ready).trace = ready.trace ++ [.event 4 0] ∧ .event 4 0 ∈ [OutEvent.event 4 0] :=
  ⟨by decide, rfl, rfl, by decide⟩
theorem witness_HandlerTestsTheThreeCasesInOrder :
    ready.constructed = true ∧ (ready.pins.swPresent = true ∧ 0x0020#16 = 1#16 <<< ready.pins.swBit) ∧
    0x0080#16 &&& ((1#16 <<< ready.pins.clkBit) ||| (1#16 <<< ready.pins.dtBit)) ≠ 0 ∧
    ¬ 0x0000#16 &&& ((1#16 <<< ready.pins.clkBit) ||| (1#16 <<< ready.pins.dtBit)) ≠ 0 := by decide
theorem witness_HandlerDecisionTable :
    (live configD 7 0 0 false).constructed = true ∧ (live configD 7 0 0 false).pins.WellFormed ∧
    (0x8000#16).getLsbD 15 = true ∧ (0x0001#16).getLsbD 0 = true ∧
    (∀ n, n < 16 → ((0x0100#16).getLsbD n = true ↔ n = 8)) ∧ (0x0000#16).getLsbD 15 = false := by decide
theorem witness_RotationHasPriorityOverTheSwitch :
    ready.constructed = true ∧ ready.pins.WellFormed ∧ ready.pins.swPresent = true ∧
    0x0020#16 = 1#16 <<< ready.pins.swBit ∧
    (0x00A0#16).getLsbD ready.pins.swBit = true ∧ (0x00A0#16).getLsbD ready.pins.clkBit = true := by decide
theorem witness_HandlerNeverDoesBoth :
    exec (.handleInterrupt 0x0020 0x0020) ready = .next (after (.handleInterrupt 0x0020 0x0020) ready) ∧
    exec (.irq 0x0020 0x0020) ready = .next (after (.irq 0x0020 0x0020) ready) := ⟨rfl, rfl⟩
theorem witness_UnconfiguredLinesAreNeverRead :
    (0x0000#16).getLsbD ready.pins.clkBit = (0xFF1F#16).getLsbD ready.pins.clkBit ∧
    (0x0000#16).getLsbD ready.pins.dtBit = (0xFF1F#16).getLsbD ready.pins.dtBit ∧
    (0x0000#16).getLsbD ready.pins.swBit = (0xFF1F#16).getLsbD ready.pins.swBit := by decide
theorem witness_DeliveryIsGatedByBound :
    ready.constructed = true ∧ ready.bound = true ∧ State.reset.constructed = true ∧ State.reset.bound = false := by decide
theorem witness_StartBindsThenDrains : State.reset.constructed = true := by decide
theorem witness_StopUnbindsThenDrains : ready.constructed = true := by decide
theorem witness_DeliveriesAfterStopAreLost : ready.constructed = true := by decide
theorem witness_StartAfterStopResumes : ready.constructed = true := by decide
theorem witness_ConstructArmsExactlyTheConfiguredLines :
    exec .construct (State.beforeConstruct configC) = .next (State.afterConstruct configC) ∧
    (State.afterConstruct configC).trace = (State.beforeConstruct configC).trace ++ constructionEvents 0x0003 := ⟨rfl, rfl⟩
theorem witness_StartAndStopAtTheCollaborator :
    (after .start ready).trace = ready.trace ++ startEvents ∧ exec .start ready = .next (after .start ready) ∧
    (after .stop ready).trace = ready.trace ++ stopEvents ∧ exec .stop ready = .next (after .stop ready) := ⟨rfl, rfl, rfl, rfl⟩
theorem witness_OtherOperationsLeaveTheCollaboratorAlone :
    Instr.step .inc ≠ .construct ∧ Instr.step .inc ≠ .start ∧ Instr.step .inc ≠ .stop ∧
    exec (.step .inc) ready = .next (after (.step .inc) ready) ∧
    (after (.step .inc) ready).trace = ready.trace ++ [.event 6 0] := ⟨nofun, nofun, nofun, rfl, rfl⟩
theorem witness_BoundMirrorsTheRegistration :
    Instr.start ≠ .construct ∧ exec .start State.reset = .next (after .start State.reset) ∧
    (after .start State.reset).trace = State.reset.trace ++ startEvents ∧
    blankCollaborator.handler = (if State.reset.bound then some .fallingEdge else none) := ⟨nofun, rfl, rfl, rfl⟩
theorem witness_OnlyTheTabulatedOperationsWrite :
    exec (.irq 0x0040 0x0000) ready = .next (after (.irq 0x0040 0x0000) ready) ∧
    (after (.irq 0x0040 0x0000) ready).value ≠ ready.value ∧
    (after (.irq 0x0040 0x0000) ready).quadState ≠ ready.quadState ∧
    (after (.onButton 1) ready).buttonState ≠ ready.buttonState ∧ (after .stop ready).bound ≠ ready.bound :=
  ⟨rfl, by decide, by decide, by decide, by decide⟩
theorem witness_ValueStaysWithinBounds :
    (State.beforeConstruct configD).constructed = false ∧
    exec .construct { ready with cfg := configD } = .next (after .construct { ready with cfg := configD }) ∧
    (State.beforeConstruct configD).cfg.WellFormed ∧ ready.constructed = true ∧ ready.InBounds ∧
    exec (.onRotation 0 0) ready = .next (after (.onRotation 0 0) ready) ∧ Instr.onRotation 0 0 ≠ .construct :=
  ⟨rfl, rfl, by decide, rfl, by decide, rfl, nofun⟩
theorem witness_EveryStepKeepsTheInvariant :
    ready.Inv ∧ step ready = .next { after (.onRotation 0 0) ready with commands := [0x800000000#36] } := ⟨by decide, rfl⟩
theorem witness_ResetMeetsTheInvariant : configD.WellFormed := by decide
theorem witness_EveryStepKeepsTheTraceAllowed :
    ready.Inv ∧ ready.TraceAllowed ∧ step ready = .next { after (.onRotation 0 0) ready with commands := [0x800000000#36] } :=
  ⟨by decide, by decide, rfl⟩
theorem witness_CountAndReportsStayWithinBoundsForever :
    configB.WellFormed ∧
    Host.Core.run core 1 { State.afterConstruct configB with commands := [0x300000001#36] } =
      .next (after (.step .dec) (State.afterConstruct configB)) := ⟨by decide, rfl⟩

end Sys2Proof.Tests
end

/-! SUPPORT. What the operations other than CONSTRUCT leave unchanged and how they may move the count
(spec/10_state.md R22, R23, R31); the check of CONSTRUCT as well-formedness of the record (spec/40_construct.md R85). -/

namespace Sys2Proof.Machine

section
variable (s : State)

/-! ### What no operation but CONSTRUCT writes -/

/-- `t` has the record, the copies CONSTRUCT made of it and the presented words of `s` (R22, R31). -/
structure SameSetup (s t : State) : Prop where
  cfg         : t.cfg = s.cfg
  constructed : t.constructed = s.constructed
  minVal      : t.minVal = s.minVal
  maxVal      : t.maxVal = s.maxVal
  pins        : t.pins = s.pins
  onChange    : t.onChange = s.onChange
  commands    : t.commands = s.commands

theorem SameSetup.refl : SameSetup s s := ⟨rfl, rfl, rfl, rfl, rfl, rfl, rfl⟩

theorem stepCounter_sameSetup (d : Direction) : SameSetup s (stepCounter d s) := by
  constructor <;> simp [stepCounter]

theorem reportButton_sameSetup (level : Bit) : SameSetup s (reportButton level s) := by
  constructor <;> simp [reportButton]

theorem bindHandler_sameSetup : SameSetup s (bindHandler s) := ⟨rfl, rfl, rfl, rfl, rfl, rfl, rfl⟩

theorem unbindHandler_sameSetup : SameSetup s (unbindHandler s) := ⟨rfl, rfl, rfl, rfl, rfl, rfl, rfl⟩

theorem rotate_sameSetup (clk dt : Bit) : SameSetup s (rotate clk dt s) := by
  obtain ⟨d, q, h⟩ | ⟨q, h⟩ := rotate_cases s clk dt
  · rw [h]
    constructor <;> simp [stepCounter]
  · rw [h]
    exact ⟨rfl, rfl, rfl, rfl, rfl, rfl, rfl⟩

theorem handleInterrupt_sameSetup (flagged captured : Port) : SameSetup s (handleInterrupt flagged captured s) := by
  obtain ⟨-, h⟩ | h | h := handleInterrupt_cases s flagged captured
  · exact h ▸ reportButton_sameSetup s _
  · exact h ▸ rotate_sameSetup s _ _
  · exact h.symm ▸ SameSetup.refl s

theorem deliverInterrupt_sameSetup (flagged captured : Port) : SameSetup s (deliverInterrupt flagged captured s) := by
  obtain ⟨-, h⟩ | ⟨-, h⟩ := deliverInterrupt_cases s flagged captured
  · exact h ▸ handleInterrupt_sameSetup s _ _
  · exact h.symm ▸ SameSetup.refl s

theorem procedure_sameSetup {i : Instr} (hi : i ≠ .construct) : SameSetup s (procedure i s) := by
  cases i with
  | construct => exact absurd rfl hi
  | onRotation clk dt => exact rotate_sameSetup s clk dt
  | step d => exact stepCounter_sameSetup s d
  | onButton level => exact reportButton_sameSetup s level
  | handleInterrupt f c => exact handleInterrupt_sameSetup s f c
  | start => exact bindHandler_sameSetup s
  | stop => exact unbindHandler_sameSetup s
  | irq f c => exact deliverInterrupt_sameSetup s f c

theorem exec_sameSetup {i : Instr} {s t : State} (hi : i ≠ .construct) (h : exec i s = .next t) : SameSetup s t := by
  obtain ⟨rfl, -⟩ := exec_next h
  exact procedure_sameSetup s hi

/-! ### How the count may move -/

/-- The count of `t` is that of `s`, or the clamped sum STEP stores (R100). -/
def CountMoves (s t : State) : Prop :=
  t.value = s.value ∨ ∃ d : Direction, t.value = clamp (s.value + d.delta) s.minVal s.maxVal

theorem stepCounter_countMoves (d : Direction) : CountMoves s (stepCounter d s) :=
  .inr ⟨d, by simp [stepCounter]⟩

theorem reportButton_countMoves (level : Bit) : CountMoves s (reportButton level s) :=
  .inl (by simp [reportButton])

theorem rotate_countMoves (clk dt : Bit) : CountMoves s (rotate clk dt s) := by
  obtain ⟨d, q, h⟩ | ⟨q, h⟩ := rotate_cases s clk dt
  · exact h ▸ stepCounter_countMoves (s.setQuadState q) d
  · exact .inl (by simp [h])

theorem handleInterrupt_countMoves (flagged captured : Port) : CountMoves s (handleInterrupt flagged captured s) := by
  obtain ⟨-, h⟩ | h | h := handleInterrupt_cases s flagged captured
  · exact h ▸ reportButton_countMoves s _
  · exact h ▸ rotate_countMoves s _ _
  · exact .inl (by rw [h])

theorem deliverInterrupt_countMoves (flagged captured : Port) : CountMoves s (deliverInterrupt flagged captured s) := by
  obtain ⟨-, h⟩ | ⟨-, h⟩ := deliverInterrupt_cases s flagged captured
  · exact h ▸ handleInterrupt_countMoves s _ _
  · exact .inl (by rw [h])

theorem procedure_countMoves {i : Instr} (hi : i ≠ .construct) : CountMoves s (procedure i s) := by
  cases i with
  | construct => exact absurd rfl hi
  | onRotation clk dt => exact rotate_countMoves s clk dt
  | step d => exact stepCounter_countMoves s d
  | onButton level => exact reportButton_countMoves s level
  | handleInterrupt f c => exact handleInterrupt_countMoves s f c
  | start => exact .inl rfl
  | stop => exact .inl rfl
  | irq f c => exact deliverInterrupt_countMoves s f c

theorem exec_countMoves {i : Instr} {s t : State} (hi : i ≠ .construct) (h : exec i s = .next t) : CountMoves s t := by
  obtain ⟨rfl, -⟩ := exec_next h
  exact procedure_countMoves s hi

/-- A count that moves by clamping alone stays within unchanged bounds: the bounds enclose the old count, so they are
not crossed, and clamping lands between them. -/
theorem CountMoves.inBounds {s t : State} (hm : CountMoves s t) (hsame : SameSetup s t) (hs : s.InBounds) :
    t.InBounds := by
  unfold State.InBounds
  rw [hsame.minVal, hsame.maxVal]
  obtain hv | ⟨d, hv⟩ := hm
  · exact hv ▸ hs
  · exact hv ▸ clamp_mem (hs.1.trans hs.2)

/-! ### CONSTRUCT -/

/-- CONSTRUCT's check passes exactly the well-formed records (R10, R85). -/
theorem checkConfig_eq_none_iff (c : Config) : checkConfig c = none ↔ c.WellFormed := by
  unfold checkConfig
  split_ifs with hbounds hinit hport hoverlap
  · exact iff_of_false nofun fun ⟨hmin, hmax, _⟩ => by omega
  · exact iff_of_false nofun fun ⟨hmin, hmax, _⟩ => by omega
  · exact iff_of_false nofun fun ⟨_, _, hclk, hdt, _, hsw⟩ => by grind
  · exact iff_of_false nofun fun ⟨_, _, _, _, hdistinct, hsw⟩ => by grind
  · exact iff_of_true rfl (by grind)

theorem exec_construct_of_wellFormed (h : s.cfg.WellFormed) :
    exec .construct s = .next (procedure .construct s) := by
  simp only [exec, execConstruct, (checkConfig_eq_none_iff s.cfg).2 h, procedure]

theorem wellFormed_of_exec_construct {s t : State} (h : exec .construct s = .next t) : s.cfg.WellFormed := by
  obtain ⟨-, ⟨-, hcheck⟩ | ⟨hne, -⟩⟩ := exec_next h
  · exact (checkConfig_eq_none_iff s.cfg).1 hcheck
  · exact absurd rfl hne

/-- The count CONSTRUCT stores lies within the bounds it stores. -/
theorem procedure_construct_inBounds (h : s.cfg.WellFormed) : (procedure .construct s).InBounds := by
  obtain ⟨hmin, hmax, -⟩ := h
  exact ⟨hmin, hmax⟩

/-! ### Single operations and runs keep the bounds -/

/-- A CONSTRUCT that completes puts the count within the bounds, whatever the state was. -/
theorem exec_construct_inBounds {s t : State} (h : exec .construct s = .next t) : t.InBounds := by
  obtain ⟨rfl, -⟩ := exec_next h
  exact procedure_construct_inBounds s (wellFormed_of_exec_construct h)

theorem exec_keeps_inBounds {i : Instr} {s t : State} (hs : s.InBounds) (h : exec i s = .next t) : t.InBounds := by
  by_cases hi : i = .construct
  · exact exec_construct_inBounds (hi ▸ h)
  · exact (exec_countMoves hi h).inBounds (exec_sameSetup hi h) hs

/-- On an existing instance every operation but CONSTRUCT completes. -/
theorem exec_of_constructed {i : Instr} (hi : i ≠ .construct) (hs : s.constructed = true) :
    exec i s = .next (procedure i s) := by
  rw [exec_of_ne_construct s hi, onInstance_of_constructed s hs]

/-- Any list of operations without CONSTRUCT runs to its end on an existing instance and keeps the bounds. -/
theorem execAll_keeps_inBounds {is : List Instr} (hne : ∀ i ∈ is, i ≠ .construct) (hc : s.constructed = true)
    (hs : s.InBounds) : ∃ t, execAll is s = .next t ∧ t.InBounds := by
  induction is generalizing s with
  | nil => exact ⟨s, rfl, hs⟩
  | cons i is ih =>
    obtain ⟨hi, hne⟩ := List.forall_mem_cons.1 hne
    have hnext := exec_of_constructed s hi hc
    rw [execAll, hnext]
    exact ih _ hne ((exec_sameSetup hi hnext).constructed.trans hc) (exec_keeps_inBounds hs hnext)

theorem rotations_ne_construct {samples : List (Bit × Bit)} : ∀ i ∈ rotations samples, i ≠ .construct := by
  intro i hi
  obtain ⟨p, -, rfl⟩ := List.mem_map.1 hi
  exact nofun

end

/-- Settles O53: CONSTRUCT stores an initial count its check found within the bounds, and every other operation leaves
the bounds alone and moves the count by clamping only; runs follow by induction over the operations. -/
theorem valueStaysWithinBounds : Obligations.ValueStaysWithinBounds := by
  unfold Obligations.ValueStaysWithinBounds
  refine ⟨?firstConstruct, ?anyConstruct, ?laterOperation, ?countMoves, ?samples⟩
  case firstConstruct =>
    intro s _ hwf
    exact ⟨_, exec_construct_of_wellFormed s hwf, procedure_construct_inBounds s hwf⟩
  case anyConstruct => exact fun s t _ h => exec_construct_inBounds h
  case laterOperation => exact fun i s t _ hs h => exec_keeps_inBounds hs h
  case countMoves => exact fun i s t hi h => exec_countMoves hi h
  case samples => exact fun samples s hc hs => execAll_keeps_inBounds s rotations_ne_construct hc hs

end Sys2Proof.Machine

/-! SUPPORT. The configuration CONSTRUCT copies is fixed for the life of the instance (spec/40_construct.md R81); the
events of a completed CONSTRUCT and the one mask they carry (R84). -/

namespace Sys2Proof.Machine

/-- Settles O19: every operation but CONSTRUCT keeps the whole setup, the copies of the record among it. -/
theorem configurationIsFixedForLife : Obligations.ConfigurationIsFixedForLife := by
  unfold Obligations.ConfigurationIsFixedForLife
  intro i s t hi h
  have hsame := exec_sameSetup hi h
  exact ⟨hsame.minVal, hsame.maxVal, hsame.pins, hsame.onChange⟩

/-- A CONSTRUCT that completes appends its five events with the armed mask of the record, and no others (R55, R80). -/
theorem trace_of_exec_construct {s t : State} (h : exec .construct s = .next t) :
    t.trace = s.trace ++ constructionEvents (armedMask s.cfg.pins) := by
  obtain ⟨rfl, -⟩ := exec_next h
  rfl

/-- Among the events of CONSTRUCT each register is OR-written once, with the mask `m` and with no other (R84). -/
theorem count_portOr_constructionEvents (m m' : Port) (reg : OrRegister) :
    (constructionEvents m).count (.portOr reg m') = if m' = m then 1 else 0 := by
  by_cases hm : m' = m
  · subst hm
    cases reg <;> simp [constructionEvents]
  · have hnone : OutEvent.portOr reg m' ∉ constructionEvents m := by simp [constructionEvents, hm]
    rw [List.count_eq_zero_of_not_mem hnone, if_neg hm]

/-- With a switch the armed mask is that of the three lines (R72). -/
theorem armedMask_of_switch {p : PinAssignment} (h : p.swPresent = true) :
    armedMask p = (1#16 <<< p.clkBit) ||| (1#16 <<< p.dtBit) ||| (1#16 <<< p.swBit) := if_pos h

/-- Settles O14: the events are those of CONSTRUCT with the armed mask, which is then the one mask asked for. -/
theorem sameMaskGoesToAllFourRegisters : Obligations.SameMaskGoesToAllFourRegisters := by
  unfold Obligations.SameMaskGoesToAllFourRegisters
  intro s t es _ h htrace
  have hes : es = constructionEvents (armedMask s.cfg.pins) :=
    List.append_cancel_left (htrace.symm.trans (trace_of_exec_construct h))
  exact ⟨armedMask s.cfg.pins, fun reg m' => hes ▸ count_portOr_constructionEvents _ m' reg, armedMask_of_switch⟩

end Sys2Proof.Machine

/-! SUPPORT. The register ON_ROTATION writes, in the spec's own form (spec/41_quadrature.md R90, R91). -/

namespace Sys2Proof.Machine

/-- The sample widened to the register: each of the four level pairs is the same number in 2 and in 8 bits. -/
theorem setWidth_sample (clk dt : Bit) :
    (sample clk dt).setWidth 8 = (clk.setWidth 8 <<< 1) ||| dt.setWidth 8 := by
  decide +revert

/-- Shifting the sample of R91 in is the formula of R90. -/
theorem shiftSample_sample (q : QuadReg) (clk dt : Bit) :
    shiftSample q (sample clk dt) = ((q &&& 0x3F#8) <<< 2) ||| (clk.setWidth 8 <<< 1) ||| dt.setWidth 8 := by
  rw [shiftSample, setWidth_sample, historyMask, BitVec.or_assoc]

/-- Settles O25: ON_ROTATION is `rotate` on an existing instance, and `rotate` is a Step over the shifted register on
either terminal code, else the write of the shifted register alone. -/
theorem rotationShiftsAndStepsOnTerminalCodes : Obligations.RotationShiftsAndStepsOnTerminalCodes := by
  unfold Obligations.RotationShiftsAndStepsOnTerminalCodes
  intro s clk dt hs q stepped
  have hexec : exec (.onRotation clk dt) s = .next (rotate clk dt s) := exec_of_constructed s nofun hs
  have hq : shiftSample s.quadState (sample clk dt) = q := shiftSample_sample _ _ _
  have hstep (d : Direction) : stepCounter d (s.setQuadState q) = stepped d.delta := stepCounter_eq _ _
  rw [hexec]
  refine ⟨fun hdec => ?decrement, fun hinc => ?increment, fun hdec hinc => ?other⟩
  case decrement =>
    rw [rotate_of_decrement s (hq.trans hdec), show decrementCode = q from hdec.symm, hstep]
    rfl
  case increment =>
    rw [rotate_of_increment s (hq.trans hinc), show incrementCode = q from hinc.symm, hstep]
    rfl
  case other =>
    rw [rotate_of_other s (hq ▸ hdec) (hq ▸ hinc), hq]
    rfl

end Sys2Proof.Machine

/-! SUPPORT. Step as the one procedure of STEP and of a rotation that lands on a terminal code (spec/42_counter.md
R100, spec/41_quadrature.md R90). -/

namespace Sys2Proof.Machine

/-- A rotation that steps is the operation STEP over the written register, on an absent instance too, where both are
refused. -/
theorem exec_onRotation_of_rotate_eq_stepCounter {s : State} {clk dt : Bit} {d : Direction} {q : QuadReg}
    (h : rotate clk dt s = stepCounter d (s.setQuadState q)) :
    exec (.onRotation clk dt) s = exec (.step d) (s.setQuadState q) := by
  have hrotation : exec (.onRotation clk dt) s = onInstance (rotate clk dt) s := exec_of_ne_construct s nofun
  have hstep : exec (.step d) (s.setQuadState q) = onInstance (stepCounter d) (s.setQuadState q) :=
    exec_of_ne_construct _ nofun
  rw [hrotation, hstep, onInstance, onInstance, h, State.setQuadState_constructed]

/-- Settles O20: STEP on an existing instance is `stepCounter`, whose explicit result is the stated one in either
direction; a rotation onto a terminal code is `stepCounter` over the written register. -/
theorem stepStoresClampedSumThenNotifies : Obligations.StepStoresClampedSumThenNotifies := by
  unfold Obligations.StepStoresClampedSumThenNotifies
  refine ⟨?step, ?rotation⟩
  case step =>
    intro s d hs
    have hexec : exec (.step d) s = .next (stepCounter d s) := exec_of_constructed s nofun hs
    rw [hexec, stepCounter_eq]
    cases d <;> rfl
  case rotation =>
    intro s clk dt q
    refine ⟨fun hdec => ?decrement, fun hinc => ?increment⟩
    case decrement =>
      have hq : shiftSample s.quadState (sample clk dt) = decrementCode := (shiftSample_sample _ _ _).trans hdec
      rw [show q = decrementCode from hdec]
      exact exec_onRotation_of_rotate_eq_stepCounter (rotate_of_decrement s hq)
    case increment =>
      have hq : shiftSample s.quadState (sample clk dt) = incrementCode := (shiftSample_sample _ _ _).trans hinc
      rw [show q = incrementCode from hinc]
      exact exec_onRotation_of_rotate_eq_stepCounter (rotate_of_increment s hq)

end Sys2Proof.Machine

/-! SUPPORT. The procedure of ON_BUTTON (spec/43_button.md R110), which a handled switch interrupt runs too. -/

namespace Sys2Proof.Machine

/-- The explicit result of the button report: the stored level and the trace, nothing else. -/
theorem reportButton_eq (level : Bit) (s : State) :
    reportButton level s =
      { s with
        buttonState := level
        trace := s.trace ++ if s.onChange then [.event s.value level] else [] } := by
  unfold reportButton
  rw [notify_eq]
  rfl

/-- Settles O33: ON_BUTTON on an existing instance is `reportButton`, whose explicit result is the stated one. -/
theorem buttonStoresLevelThenNotifies : Obligations.ButtonStoresLevelThenNotifies := by
  unfold Obligations.ButtonStoresLevelThenNotifies
  intro s level hs
  have hexec : exec (.onButton level) s = .next (reportButton level s) := exec_of_constructed s nofun hs
  rw [hexec, reportButton_eq]

end Sys2Proof.Machine

/-! SUPPORT. Notify (spec/44_notify.md R120) by its two cases: with a callback configured, and with none. -/

namespace Sys2Proof.Machine

theorem notify_of_onChange {s : State} (h : s.onChange = true) :
    notify s = s.emit [.event s.value s.buttonState] := by
  rw [notify_eq, if_pos h]

theorem notify_of_not_onChange {s : State} (h : s.onChange = false) : notify s = s := by
  simp [notify, h]

/-- Settles O34: with a callback Notify emits the one event, which writes the trace alone; with none it is the
identity. -/
theorem notifyReportsWhenCallbackConfigured : Obligations.NotifyReportsWhenCallbackConfigured := by
  unfold Obligations.NotifyReportsWhenCallbackConfigured
  intro s
  exact ⟨notify_of_onChange, notify_of_not_onChange⟩

end Sys2Proof.Machine

/-! SUPPORT. The masks and levels of the dispatch by single bits (spec/30_encoding.md R71), and the two cases of the
handler that run another operation (spec/45_dispatch.md R131, R132). -/

namespace Sys2Proof.Machine

/-! ### Lines, levels and masks by single bits -/

theorem lineLevel_eq_ofBool (c : Port) (n : Nat) : lineLevel c n = BitVec.ofBool (c.getLsbD n) := by
  rw [lineLevel, BitVec.setWidth_one, BitVec.getLsbD_ushiftRight, Nat.add_zero]

/-- Keeping bit 0 before the narrowing to one bit, as the spec writes the level (R130), changes nothing. -/
theorem setWidth_and_one_eq_lineLevel (c : Port) (n : Nat) : ((c >>> n) &&& 1#16).setWidth 1 = lineLevel c n := by
  rw [BitVec.setWidth_and, lineLevel]
  exact BitVec.and_allOnes

theorem lineMask_eq_twoPow (n : Nat) : lineMask n = BitVec.twoPow 16 n := (BitVec.twoPow_eq 16 n).symm

theorem getLsbD_lineMask {n : Nat} (hn : n ≤ 15) (m : Nat) : (lineMask n).getLsbD m = decide (n = m) := by
  rw [lineMask_eq_twoPow, BitVec.getLsbD_twoPow, decide_eq_true (by omega), Bool.true_and]

/-- A mask meets that of a line of the port exactly when it has the line's bit. -/
theorem and_lineMask_eq_zero_iff {n : Nat} (hn : n ≤ 15) (x : Port) : x &&& lineMask n = 0#16 ↔ x.getLsbD n = false := by
  have hne : lineMask n ≠ 0#16 := fun h => by
    have hbit := getLsbD_lineMask hn n
    simp [h] at hbit
  have hand : x &&& lineMask n = if x.getLsbD n then lineMask n else 0#16 := by
    rw [lineMask_eq_twoPow, BitVec.and_twoPow]
  cases hx : x.getLsbD n <;> simp [hand, hx, hne]

/-- The test of case 2 (R132) by bits: one flagged rotation line is enough. -/
theorem and_rotationMask_ne_zero_iff {p : PinAssignment} (hp : p.WellFormed) (flagged : Port) :
    flagged &&& rotationMask p ≠ 0#16 ↔ flagged.getLsbD p.clkBit = true ∨ flagged.getLsbD p.dtBit = true := by
  obtain ⟨hclk, hdt, -⟩ := hp
  rw [rotationMask, BitVec.and_or_distrib_left, ne_eq, BitVec.or_eq_zero_iff, and_lineMask_eq_zero_iff hclk,
    and_lineMask_eq_zero_iff hdt, not_and_or, Bool.not_eq_false, Bool.not_eq_false]

/-- A mask with a rotation bit is not the lone switch bit, since the lines are distinct: the test of case 1 fails. -/
theorem ne_switchMask_of_rotation_bit {p : PinAssignment} (hp : p.WellFormed) (hsw : p.swPresent = true) {flagged : Port}
    (hrot : flagged.getLsbD p.clkBit = true ∨ flagged.getLsbD p.dtBit = true) : flagged ≠ switchMask p := by
  obtain ⟨-, -, -, hdistinct⟩ := hp
  obtain ⟨hport, hclk, hdt⟩ := hdistinct hsw
  rintro rfl
  simp only [switchMask, getLsbD_lineMask hport, decide_eq_true_eq] at hrot
  exact hrot.elim hclk hdt

/-! ### The handler as another operation -/

/-- A rotation leaves the button register alone, whether or not it steps (R132). -/
@[simp] theorem rotate_buttonState (s : State) (clk dt : Bit) : (rotate clk dt s).buttonState = s.buttonState := by
  obtain ⟨d, q, h⟩ | ⟨q, h⟩ := rotate_cases s clk dt <;> simp [h, stepCounter_eq]

/-- Two operations other than CONSTRUCT with one procedure on `s` have one outcome there, on an absent instance too. -/
theorem exec_congr_procedure {i j : Instr} {s : State} (hi : i ≠ .construct) (hj : j ≠ .construct)
    (h : procedure i s = procedure j s) : exec i s = exec j s := by
  rw [exec_of_ne_construct s hi, exec_of_ne_construct s hj, onInstance, onInstance, h]

theorem exec_handleInterrupt_of_switchAlone {s : State} {flagged : Port} (captured : Port)
    (h : s.pins.swPresent = true ∧ flagged = switchMask s.pins) :
    exec (.handleInterrupt flagged captured) s = exec (.onButton (lineLevel captured s.pins.swBit)) s :=
  exec_congr_procedure nofun nofun (handleInterrupt_of_switchAlone s h)

theorem exec_handleInterrupt_of_rotation {s : State} {flagged : Port} (captured : Port)
    (h : ¬ (s.pins.swPresent = true ∧ flagged = switchMask s.pins)) (hr : flagged &&& rotationMask s.pins ≠ 0#16) :
    exec (.handleInterrupt flagged captured) s =
      exec (.onRotation (lineLevel captured s.pins.clkBit) (lineLevel captured s.pins.dtBit)) s :=
  exec_congr_procedure nofun nofun (handleInterrupt_of_rotation s h hr)

/-- Settles O40: the lone switch bit is case 1; a rotation bit fails the test of case 1, passes that of case 2, and the
rotation it runs leaves `button_state` alone. -/
theorem rotationHasPriorityOverTheSwitch : Obligations.RotationHasPriorityOverTheSwitch := by
  unfold Obligations.RotationHasPriorityOverTheSwitch
  intro s flagged captured hs hpins hsw level
  have hlevel (n : Nat) : level n = lineLevel captured n := (lineLevel_eq_ofBool captured n).symm
  refine ⟨fun halone => ?switchAlone, fun hrot => ?rotation⟩
  case switchAlone =>
    rw [hlevel]
    exact exec_handleInterrupt_of_switchAlone captured ⟨hsw, halone⟩
  case rotation =>
    rw [hlevel, hlevel]
    have hcase1 : ¬ (s.pins.swPresent = true ∧ flagged = switchMask s.pins) := fun h =>
      ne_switchMask_of_rotation_bit hpins hsw hrot h.2
    have hcase2 : flagged &&& rotationMask s.pins ≠ 0#16 := (and_rotationMask_ne_zero_iff hpins flagged).2 hrot
    have hexec := exec_of_constructed s
      (i := .onRotation (lineLevel captured s.pins.clkBit) (lineLevel captured s.pins.dtBit)) nofun hs
    exact ⟨_, (exec_handleInterrupt_of_rotation captured hcase1 hcase2).trans hexec, hexec, rotate_buttonState s _ _⟩

/-- Settles O38: on an existing instance the handler completes, and each of its three tests selects its case. -/
theorem handlerTestsTheThreeCasesInOrder : Obligations.HandlerTestsTheThreeCasesInOrder := by
  unfold Obligations.HandlerTestsTheThreeCasesInOrder
  intro s flagged captured hs level case1 case2
  have hexec : exec (.handleInterrupt flagged captured) s = .next (handleInterrupt flagged captured s) :=
    exec_of_constructed s nofun hs
  have hlevel (n : Nat) : level n = lineLevel captured n := setWidth_and_one_eq_lineLevel captured n
  refine ⟨⟨_, hexec⟩, fun h1 => ?switchAlone, fun h1 h2 => ?rotation, fun h1 h2 => ?neither⟩
  case switchAlone =>
    rw [hlevel]
    exact exec_handleInterrupt_of_switchAlone captured h1
  case rotation =>
    rw [hlevel, hlevel]
    exact exec_handleInterrupt_of_rotation captured h1 h2
  case neither => rw [hexec, handleInterrupt_of_neither s h1 h2]

end Sys2Proof.Machine

/-! SUPPORT. The procedures of START and STOP (spec/46_start_stop.md R140, R141) as explicit states. -/

namespace Sys2Proof.Machine

theorem bindHandler_eq (s : State) :
    bindHandler s =
      { s with
        bound := true
        trace := s.trace ++ [.irqBind .fallingEdge, .portDiscardRead .interruptCaptured] } := rfl

theorem unbindHandler_eq (s : State) :
    unbindHandler s =
      { s with
        bound := false
        trace := s.trace ++ [.irqUnbind, .portDiscardRead .interruptCaptured] } := rfl

/-- Settles O44: START on an existing instance is `bindHandler`, bound or not (R143), whose explicit result is the
stated one. -/
theorem startBindsThenDrains : Obligations.StartBindsThenDrains := by
  unfold Obligations.StartBindsThenDrains
  intro s hs
  have hexec : exec .start s = .next (bindHandler s) := exec_of_constructed s nofun hs
  rw [hexec, bindHandler_eq]

/-- Settles O45: STOP on an existing instance is `unbindHandler`, bound or not (R143), whose explicit result is the
stated one. -/
theorem stopUnbindsThenDrains : Obligations.StopUnbindsThenDrains := by
  unfold Obligations.StopUnbindsThenDrains
  intro s hs
  have hexec : exec .stop s = .next (unbindHandler s) := exec_of_constructed s nofun hs
  rw [hexec, unbindHandler_eq]

end Sys2Proof.Machine

/-! SUPPORT. The decoder as one test and one reading (spec/30_encoding.md R65): it accepts exactly the legal words of
R66, and from a legal word it reads the operation its operation code and operand fields name. -/

namespace Sys2Proof

/-! ### The decoder's two parts -/

/-- The operation the operation code and the operand fields of a word name (R62, R64), whatever its "zero" field. -/
def readOperation (w : CommandWord) : Instr :=
  match (opOf w).toNat with
  | 1 => .construct
  | 2 => .onRotation (clkOf w) (dtOf w)
  | 3 => .step (directionOf w)
  | 4 => .onButton (levelOf w)
  | 6 => .handleInterrupt (flaggedOf w) (capturedOf w)
  | 7 => .start
  | 8 => .stop
  | _ => .irq (flaggedOf w) (capturedOf w)

/-- The operation codes of R62. -/
theorem assignedOp_iff (op : BitVec 4) :
    assignedOp op ↔ op = 1#4 ∨ op = 2#4 ∨ op = 3#4 ∨ op = 4#4 ∨ op = 6#4 ∨ op = 7#4 ∨ op = 8#4 ∨ op = 9#4 := by
  decide +revert

theorem zeroFieldLow_le (op : BitVec 4) : zeroFieldLow op ≤ 32 := by
  decide +revert

/-- The "zero" field is all zeros exactly when the payload lies below the field's lowest bit. -/
theorem zeroField_eq_zero_iff (w : CommandWord) {low : Nat} (h : low ≤ 32) :
    w.extractLsb' low (32 - low) = 0 ↔ (w.extractLsb' 0 32).toNat < 2 ^ low := by
  rw [← BitVec.toNat_inj, field_toNat, field_toNat, BitVec.ofNat_eq_ofNat, BitVec.toNat_ofNat, Nat.zero_mod, pow_zero,
    Nat.div_one, ← Nat.sub_add_cancel h, pow_add, Nat.mul_comm, Nat.sub_add_cancel h, ← Nat.mod_mul_right_div_self,
    Nat.div_eq_zero_iff_lt (by positivity)]

/-- Legality in the decoder's own terms. -/
theorem legalWord_iff (w : CommandWord) :
    LegalWord w ↔ assignedOp (opOf w) ∧ w.extractLsb' (zeroFieldLow (opOf w)) (32 - zeroFieldLow (opOf w)) = 0 := by
  rw [zeroField_eq_zero_iff w (zeroFieldLow_le _), opOf]

/-- Format P has no "zero" field: its field of no bits is zero. -/
theorem withZeroField_noField (w : CommandWord) (i : Instr) : withZeroField w 32 i = .ok i :=
  if_pos (BitVec.eq_of_zero_length rfl)

theorem decode_of_assigned {w : CommandWord} (h : assignedOp (opOf w)) :
    decode w = withZeroField w (zeroFieldLow (opOf w)) (readOperation w) := by
  obtain h | h | h | h | h | h | h | h := (assignedOp_iff _).1 h <;>
    simp [decode, readOperation, zeroFieldLow, h, withZeroField_noField]

theorem decode_of_reserved {w : CommandWord} (h : ¬ assignedOp (opOf w)) : decode w = .error (.reservedOp (opOf w)) := by
  simp only [assignedOp_iff, not_or] at h
  simp only [decode, h, if_false]

theorem decode_of_legal {w : CommandWord} (h : LegalWord w) : decode w = .ok (readOperation w) := by
  obtain ⟨hop, hzero⟩ := (legalWord_iff w).1 h
  rw [decode_of_assigned hop, withZeroField, if_pos hzero]

theorem decode_of_nonzeroField {w : CommandWord} (hop : assignedOp (opOf w)) (h : ¬ LegalWord w) :
    decode w = .error (.nonzeroField (opOf w)) := by
  rw [decode_of_assigned hop, withZeroField, if_neg fun hzero => h ((legalWord_iff w).2 ⟨hop, hzero⟩)]

/-- The inversion of the decoder. -/
theorem decode_eq_ok_iff {w : CommandWord} {i : Instr} : decode w = .ok i ↔ LegalWord w ∧ readOperation w = i := by
  by_cases hlegal : LegalWord w
  · rw [decode_of_legal hlegal, Except.ok.injEq, and_iff_right hlegal]
  · refine iff_of_false (fun h => ?_) fun h => hlegal h.1
    by_cases hop : assignedOp (opOf w)
    · exact nomatch (decode_of_nonzeroField hop hlegal).symm.trans h
    · exact nomatch (decode_of_reserved hop).symm.trans h

/-- Settles O4: this is what the inversion of the decoder says of the words it accepts. -/
theorem exactlyTheLegalWordsDecode : Obligations.ExactlyTheLegalWordsDecode := by
  unfold Obligations.ExactlyTheLegalWordsDecode
  intro w
  exact ⟨fun ⟨_, h⟩ => (decode_eq_ok_iff.1 h).1, fun h => ⟨_, decode_of_legal h⟩⟩

/-! ### Decoding and encoding are inverse -/

theorem encoding_statement (i : Instr) : Laws.Encoding.Statement i := by
  cases i with
  | construct => exact Laws.Encoding.construct
  | onRotation clk dt => exact Laws.Encoding.onRotation clk dt
  | step d => exact Laws.Encoding.step d
  | onButton level => exact Laws.Encoding.onButton level
  | handleInterrupt flagged captured => exact Laws.Encoding.handleInterrupt flagged captured
  | start => exact Laws.Encoding.start
  | stop => exact Laws.Encoding.stop
  | irq flagged captured => exact Laws.Encoding.irq flagged captured

theorem encode_legal (i : Instr) : LegalWord (encode i) := (encoding_statement i).2.1

/-- Every operation has its row in the opcode table (R62). -/
theorem exists_row (i : Instr) : ∃ r ∈ opcodeTable, r.mnemonic = i.mnemonic ∧ opOf r.matchBits = i.opcode :=
  (encoding_statement i).2.2

/-- The high half of a payload of two port operands (format P). -/
theorem flaggedOf_encode {i : Instr} {flagged captured : Port} (h : i.payload = flagged ++ captured) :
    flaggedOf (encode i) = flagged := by
  rw [flaggedOf, encode_field i (by omega), h, BitVec.extractLsb'_append_eq_left]

/-- The low half of a payload of two port operands (format P). -/
theorem capturedOf_encode {i : Instr} {flagged captured : Port} (h : i.payload = flagged ++ captured) :
    capturedOf (encode i) = captured := by
  rw [capturedOf, encode_field i (by omega), h, BitVec.extractLsb'_append_eq_right]

theorem readOperation_encode (i : Instr) : readOperation (encode i) = i := by
  cases i with
  | construct => rfl
  | onRotation clk dt => decide +revert
  | step d => cases d <;> rfl
  | onButton level => decide +revert
  | handleInterrupt flagged captured =>
    rw [readOperation, opOf_encode, flaggedOf_encode rfl, capturedOf_encode rfl]
    rfl
  | start => rfl
  | stop => rfl
  | irq flagged captured =>
    rw [readOperation, opOf_encode, flaggedOf_encode rfl, capturedOf_encode rfl]
    rfl

/-- Settles O1: an encoding is legal, so the decoder reads from it what its code and fields name, which is the
operation encoded. -/
theorem decodeOfEncodeIsTheOperation : Obligations.DecodeOfEncodeIsTheOperation := by
  unfold Obligations.DecodeOfEncodeIsTheOperation
  exact fun i => decode_eq_ok_iff.2 ⟨encode_legal i, readOperation_encode i⟩

theorem opcode_readOperation {w : CommandWord} (h : assignedOp (opOf w)) : (readOperation w).opcode = opOf w := by
  obtain h | h | h | h | h | h | h | h := (assignedOp_iff _).1 h <;> simp [readOperation, h, Instr.opcode]

theorem bit_directionOf (w : CommandWord) : (directionOf w).bit = w.extractLsb' 0 1 := by
  unfold directionOf
  generalize w.extractLsb' 0 1 = d
  decide +revert

/-- The payload as the number its operand fields spell, most significant field first (R63). -/
def payloadNumber : Instr → Nat
  | .construct                        => 0
  | .onRotation clk dt                => clk.toNat * 2 + dt.toNat
  | .step d                           => d.bit.toNat
  | .onButton level                   => level.toNat
  | .handleInterrupt flagged captured => flagged.toNat * 2 ^ 16 + captured.toNat
  | .start                            => 0
  | .stop                             => 0
  | .irq flagged captured             => flagged.toNat * 2 ^ 16 + captured.toNat

theorem payload_toNat (i : Instr) : i.payload.toNat = payloadNumber i := by
  cases i with
  | construct => rfl
  | onRotation clk dt => decide +revert
  | step d => cases d <;> rfl
  | onButton level => decide +revert
  | handleInterrupt flagged captured => exact append_toNat flagged captured
  | start => rfl
  | stop => rfl
  | irq flagged captured => exact append_toNat flagged captured

/-- The payload of a legal word is its operand bits with zeros above them: no bit of it is ignored. -/
theorem payload_readOperation {w : CommandWord} (h : LegalWord w) :
    (readOperation w).payload.toNat = w.toNat % 2 ^ 32 := by
  obtain ⟨hop, hzero⟩ := h
  rw [field_toNat] at hzero
  rw [payload_toNat]
  obtain h | h | h | h | h | h | h | h := (assignedOp_iff _).1 hop <;>
    simp only [h, zeroFieldLow, BitVec.toNat_ofNat] at hzero <;>
    simp only [readOperation, show opOf w = _ from h, BitVec.toNat_ofNat, payloadNumber, clkOf, dtOf, bit_directionOf,
      levelOf, flaggedOf, capturedOf, field_toNat] <;>
    omega

/-- Settles O2: a word is its operation code and its payload, and of a legal word both are those of the encoding. -/
theorem decodedWordIsItsEncoding : Obligations.DecodedWordIsItsEncoding := by
  unfold Obligations.DecodedWordIsItsEncoding
  intro w i h
  obtain ⟨hlegal, rfl⟩ := decode_eq_ok_iff.1 h
  apply BitVec.eq_of_toNat_eq
  rw [encode_toNat, payload_readOperation hlegal, opcode_readOperation hlegal.1, opOf_toNat]
  omega

/-- A word decodes to an operation exactly when it is that operation's encoding. -/
theorem decode_eq_ok_iff_encode {w : CommandWord} {i : Instr} : decode w = .ok i ↔ encode i = w :=
  ⟨decodedWordIsItsEncoding w i, fun h => h ▸ decodeOfEncodeIsTheOperation i⟩

/-- Settles O5: the listed words are the encodings of the operations. -/
theorem writtenOutWordsDecode : Obligations.WrittenOutWordsDecode := by
  unfold Obligations.WrittenOutWordsDecode
  simp only [decode_eq_ok_iff_encode]
  decide

/-! ### The match/mask table -/

theorem getLsbD_and_mask (w : CommandWord) (low k : Nat) :
    (w &&& (BitVec.allOnes 36 <<< low)).getLsbD k = (decide (low ≤ k) && w.getLsbD k) := by
  simp only [BitVec.getLsbD_and, BitVec.getLsbD_shiftLeft, BitVec.getLsbD_allOnes]
  grind

theorem getLsbD_codeBits (op : BitVec 4) (k : Nat) :
    (op.setWidth 36 <<< 32).getLsbD k = (decide (32 ≤ k) && op.getLsbD (k - 32)) := by
  simp only [BitVec.getLsbD_shiftLeft, BitVec.getLsbD_setWidth]
  grind

/-- A mask with ones from bit `low` up compares the operation code and the "zero" field that begins there. -/
theorem and_mask_eq_iff (w : CommandWord) (op : BitVec 4) {low : Nat} (h : low ≤ 32) :
    w &&& (BitVec.allOnes 36 <<< low) = op.setWidth 36 <<< 32 ↔ opOf w = op ∧ w.extractLsb' low (32 - low) = 0 := by
  have hcode : opOf w = op ↔ ∀ k < 4, w.getLsbD (32 + k) = op.getLsbD k := by
    simp only [BitVec.eq_of_getLsbD_eq_iff, opOf, BitVec.getLsbD_extractLsb']
    grind
  have hzero : w.extractLsb' low (32 - low) = 0 ↔ ∀ k < 32 - low, w.getLsbD (low + k) = false := by
    simp only [BitVec.eq_of_getLsbD_eq_iff, BitVec.getLsbD_extractLsb']
    grind
  have hword : w &&& (BitVec.allOnes 36 <<< low) = op.setWidth 36 <<< 32 ↔
      ∀ k < 36, (decide (low ≤ k) && w.getLsbD k) = (decide (32 ≤ k) && op.getLsbD (k - 32)) := by
    simp only [BitVec.eq_of_getLsbD_eq_iff, getLsbD_and_mask, getLsbD_codeBits]
  rw [hcode, hzero, hword]
  constructor
  · intro heq
    exact ⟨fun k hk => by grind, fun k hk => by grind⟩
  · rintro ⟨hcode, hzero⟩ k hk
    obtain hlow | hfield | hop : k < low ∨ (low ≤ k ∧ k < 32) ∨ 32 ≤ k := by omega
    · grind
    · have := hzero (k - low)
      grind
    · have := hcode (k - 32)
      grind

/-- The shape of the rows of spec/opcode_table.json: the match bits are the operation code alone, and the mask has
ones from the lowest bit of the format's "zero" field up. -/
theorem row_shape : ∀ r ∈ opcodeTable,
    assignedOp (opOf r.matchBits) ∧ r.matchBits = (opOf r.matchBits).setWidth 36 <<< 32 ∧
      r.mask = BitVec.allOnes 36 <<< zeroFieldLow (opOf r.matchBits) := by
  decide

/-- No two rows share an operation code. -/
theorem row_eq_of_code : ∀ r ∈ opcodeTable, ∀ r' ∈ opcodeTable, opOf r.matchBits = opOf r'.matchBits → r = r' := by
  decide

theorem row_matches_iff {r : OpcodeRow} (hr : r ∈ opcodeTable) (w : CommandWord) :
    w &&& r.mask = r.matchBits ↔ LegalWord w ∧ opOf w = opOf r.matchBits := by
  obtain ⟨hop, hmatch, hmask⟩ := row_shape r hr
  rw [hmask, hmatch, and_mask_eq_iff w _ (zeroFieldLow_le _), ← hmatch, legalWord_iff]
  constructor
  · rintro ⟨hcode, hzero⟩
    exact ⟨hcode ▸ ⟨hop, hzero⟩, hcode⟩
  · rintro ⟨⟨-, hzero⟩, hcode⟩
    exact ⟨hcode, hcode ▸ hzero⟩

/-- The row that matches a legal word is the row of the operation the word reads as. -/
theorem mnemonic_of_row_matches {r : OpcodeRow} (hr : r ∈ opcodeTable) {w : CommandWord}
    (h : w &&& r.mask = r.matchBits) : r.mnemonic = (readOperation w).mnemonic := by
  obtain ⟨hlegal, hcode⟩ := (row_matches_iff hr w).1 h
  obtain ⟨r', hr', hname, hcode'⟩ := exists_row (readOperation w)
  rw [row_eq_of_code r hr r' hr' (by rw [hcode', opcode_readOperation hlegal.1, hcode]), hname]

/-- Settles O3: a row matches exactly the legal words of its operation code, and its mnemonic is that of the operation
such a word reads as. -/
theorem decoderAgreesWithMatchMaskTable : Obligations.DecoderAgreesWithMatchMaskTable := by
  unfold Obligations.DecoderAgreesWithMatchMaskTable
  intro w m
  constructor
  · rintro ⟨i, hdecode, rfl⟩
    obtain ⟨hlegal, rfl⟩ := decode_eq_ok_iff.1 hdecode
    obtain ⟨r, hr, hname, hcode⟩ := exists_row (readOperation w)
    exact ⟨r, hr, hname, (row_matches_iff hr w).2 ⟨hlegal, by rw [hcode, opcode_readOperation hlegal.1]⟩⟩
  · rintro ⟨r, hr, rfl, hmatch⟩
    exact ⟨readOperation w, decode_of_legal ((row_matches_iff hr w).1 hmatch).1, (mnemonic_of_row_matches hr hmatch).symm⟩

end Sys2Proof

/-! SUPPORT. One step by the head of the command stream, and runs of the machine over encoded operations
(spec/10_state.md R30, spec/20_memory.md R51). -/

namespace Sys2Proof.Machine

theorem runWord_of_ok {w : CommandWord} {i : Instr} (h : decode w = .ok i) (s : State) : runWord w s = exec i s := by
  simp only [runWord, h]

theorem runWord_of_error {w : CommandWord} {why : DecodeError} (h : decode w = .error why) (s : State) :
    runWord w s = .refused (.illegalWord why) := by
  simp only [runWord, h]

theorem step_of_nil {s : State} (h : s.commands = []) : step s = .next s := by
  rw [step, takeCommand_nil s h]

theorem step_of_cons {s : State} {w : CommandWord} {rest : List CommandWord} (h : s.commands = w :: rest) :
    step s = runWord w { s with commands := rest } := by
  rw [step, takeCommand_cons s h]

/-- The inversion of a step: nothing was presented and nothing happened, or an operation ran on the state with one word
taken off the stream. -/
theorem step_next {s t : State} (h : step s = .next t) :
    t = s ∨ ∃ i rest, exec i { s with commands := rest } = .next t := by
  cases hcommands : s.commands with
  | nil =>
    rw [step_of_nil hcommands] at h
    cases h
    exact .inl rfl
  | cons w rest =>
    rw [step_of_cons hcommands] at h
    cases hdecode : decode w with
    | ok i => exact .inr ⟨i, rest, (runWord_of_ok hdecode _).symm.trans h⟩
    | error why =>
      rw [runWord_of_error hdecode] at h
      cases h

/-- Settles O9: there is no word to take. -/
theorem idleBlockHoldsItsState : Obligations.IdleBlockHoldsItsState := by
  unfold Obligations.IdleBlockHoldsItsState
  exact fun s => step_of_nil

/-- Settles O7: the head of the stream is the word that runs. -/
theorem stepRunsTheDecodedCommand : Obligations.StepRunsTheDecodedCommand := by
  unfold Obligations.StepRunsTheDecodedCommand
  intro s w rest i hcommands hdecode
  rw [step_of_cons hcommands, runWord_of_ok hdecode]

/-- Settles O8: the decoder refuses such a word with the fault of that name, and the step passes it on. -/
theorem illegalWordIsRefused : Obligations.IllegalWordIsRefused := by
  unfold Obligations.IllegalWordIsRefused
  intro s w rest hcommands
  rw [step_of_cons hcommands]
  exact ⟨fun hop => runWord_of_error (decode_of_reserved hop) _,
    fun hop hillegal => runWord_of_error (decode_of_nonzeroField hop hillegal) _⟩

/-- A number the table decoder reads is a command word, and the decoder reads that word. -/
theorem decodeTableWord_some {nbits w : Nat} {i : Instr} (h : decodeTableWord nbits w = some i) :
    ∃ c, commandWordOfNat nbits w = some c ∧ decode c = .ok i := by
  unfold decodeTableWord at h
  cases hword : commandWordOfNat nbits w with
  | none => simp [hword] at h
  | some c =>
    refine ⟨c, rfl, ?_⟩
    cases hdecode : decode c with
    | ok j => simpa [hword, hdecode, Except.toOption] using h
    | error why => simp [hword, hdecode, Except.toOption] at h

/-- Settles O10: presenting a word and taking the next one is taking that word, with the stream as it was. -/
theorem presentedWordRunsNext : Obligations.PresentedWordRunsNext := by
  unfold Obligations.PresentedWordRunsNext
  intro s nbits w i h
  obtain ⟨c, hword, hdecode⟩ := decodeTableWord_some h
  rw [State.withFetchWord, hword, Option.getD_some, step, takeCommand_presentCommand]
  exact runWord_of_ok hdecode s

/-- No operation touches the words presented behind its own. -/
theorem exec_commands {i : Instr} {s t : State} (h : exec i s = .next t) : t.commands = s.commands := by
  by_cases hi : i = .construct
  · obtain ⟨rfl, -⟩ := exec_next h
    rw [hi]
    rfl
  · exact (exec_sameSetup hi h).commands

/-! ### Runs as sequences of outcomes -/

/-- Go on from the state an outcome ends in; a fault or a refusal ends the run. -/
def andThen (o : Host.Outcome State Fault Refusal) (f : State → Host.Outcome State Fault Refusal) :
    Host.Outcome State Fault Refusal :=
  match o with
  | .next s    => f s
  | .fault r   => .fault r
  | .refused r => .refused r

/-- The run of the machine behind the host's interface, at the model's own types. -/
def runFor (n : Nat) (s : State) : Host.Outcome State Fault Refusal := Host.Core.run core n s

theorem runFor_succ (n : Nat) (s : State) : runFor (n + 1) s = andThen (step s) (runFor n) := by
  have hcore : core.step s = step s := rfl
  cases h : step s <;> simp only [runFor, Host.Core.run, hcore.trans h] <;> rfl

theorem execAll_cons (i : Instr) (is : List Instr) (s : State) :
    execAll (i :: is) s = andThen (exec i s) (execAll is) := rfl

theorem andThen_next {o : Host.Outcome State Fault Refusal} {f : State → Host.Outcome State Fault Refusal} {t : State}
    (h : andThen o f = .next t) : ∃ u, o = .next u ∧ f u = .next t := by
  cases o with
  | next u => exact ⟨u, rfl, h⟩
  | fault r => cases h
  | refused r => cases h

theorem andThen_mapNext (o : Host.Outcome State Fault Refusal) (f : State → State)
    (g : State → Host.Outcome State Fault Refusal) : andThen (mapNext f o) g = andThen o (g ∘ f) := by
  cases o <;> rfl

theorem andThen_congr {o : Host.Outcome State Fault Refusal} {f g : State → Host.Outcome State Fault Refusal}
    (h : ∀ u, o = .next u → f u = g u) : andThen o f = andThen o g := by
  cases o with
  | next u => exact h u rfl
  | fault r => rfl
  | refused r => rfl

/-! ### No operation reads or writes the command stream -/

/-- The outcome of an operation is fixed by the record, the existence of the instance and the procedure's result. -/
theorem mapNext_exec_congr {i : Instr} {s s' : State} {f g : State → State} (hcfg : s'.cfg = s.cfg)
    (hconstructed : s'.constructed = s.constructed) (hprocedure : f (procedure i s') = g (procedure i s)) :
    mapNext f (exec i s') = mapNext g (exec i s) := by
  by_cases hi : i = .construct
  · subst hi
    simp only [exec, execConstruct, hcfg]
    cases checkConfig s.cfg with
    | some cause => rfl
    | none => simpa only [mapNext, procedure, hcfg] using congrArg Host.Outcome.next hprocedure
  · rw [exec_of_ne_construct s hi, exec_of_ne_construct s' hi]
    cases hs : s.constructed with
    | true =>
      rw [onInstance_of_constructed s hs, onInstance_of_constructed s' (hconstructed.trans hs), mapNext, mapNext,
        hprocedure]
    | false => rw [onInstance_of_absent s hs, onInstance_of_absent s' (hconstructed.trans hs), mapNext, mapNext]

/-- Replace the presented words not executed yet. -/
def State.withCommands (s : State) (ws : List CommandWord) : State := { s with commands := ws }

@[simp] theorem State.withCommands_bound (s : State) (ws : List CommandWord) : (s.withCommands ws).bound = s.bound := rfl
@[simp] theorem State.withCommands_pins (s : State) (ws : List CommandWord) : (s.withCommands ws).pins = s.pins := rfl

/-- Putting back the words that are there changes nothing. -/
theorem State.withCommands_of_commands_eq {s : State} {ws : List CommandWord} (h : s.commands = ws) :
    s.withCommands ws = s := by
  subst h
  rfl

theorem rotate_withCommands (clk dt : Bit) (s : State) (ws : List CommandWord) :
    rotate clk dt (s.withCommands ws) = (rotate clk dt s).withCommands ws := by
  simp only [rotate, State.withCommands]
  cases terminalStep (shiftSample s.quadState (sample clk dt)) with
  | none => rfl
  | some d => simp only [stepCounter_eq, State.setQuadState]

theorem reportButton_withCommands (level : Bit) (s : State) (ws : List CommandWord) :
    reportButton level (s.withCommands ws) = (reportButton level s).withCommands ws := by
  rw [reportButton_eq, reportButton_eq]
  rfl

theorem handleInterrupt_withCommands (flagged captured : Port) (s : State) (ws : List CommandWord) :
    handleInterrupt flagged captured (s.withCommands ws) = (handleInterrupt flagged captured s).withCommands ws := by
  simp only [handleInterrupt, rotate_withCommands, reportButton_withCommands, State.withCommands_pins,
    apply_ite (State.withCommands · ws)]

theorem procedure_withCommands (i : Instr) (s : State) (ws : List CommandWord) :
    procedure i (s.withCommands ws) = (procedure i s).withCommands ws := by
  cases i with
  | construct => rfl
  | onRotation clk dt => exact rotate_withCommands clk dt s ws
  | step d =>
    simp only [procedure, stepCounter_eq]
    rfl
  | onButton level => exact reportButton_withCommands level s ws
  | handleInterrupt f c => exact handleInterrupt_withCommands f c s ws
  | start => rfl
  | stop => rfl
  | irq f c =>
    simp only [procedure, deliverInterrupt, handleInterrupt_withCommands, State.withCommands_bound,
      apply_ite (State.withCommands · ws)]

theorem mapNext_id (o : Host.Outcome State Fault Refusal) : mapNext id o = o := by
  cases o <;> rfl

theorem exec_withCommands (i : Instr) (s : State) (ws : List CommandWord) :
    exec i (s.withCommands ws) = mapNext (State.withCommands · ws) (exec i s) := by
  rw [← mapNext_id (exec i (s.withCommands ws))]
  exact mapNext_exec_congr rfl rfl (procedure_withCommands i s ws)

/-- Settles O11, by induction over the operations: the head of the stream decodes to the head of the list, and the
operation, which touches no presented word, leaves the rest of the stream to the rest of the list. -/
theorem commandStreamRunsInOrder : Obligations.CommandStreamRunsInOrder := by
  unfold Obligations.CommandStreamRunsInOrder
  suffices h : ∀ (is : List Instr) (s : State) (rest : List CommandWord), s.commands = is.map encode ++ rest →
      runFor is.length s = execAll is (s.withCommands rest) from h
  intro is
  induction is with
  | nil =>
    intro s rest hcommands
    exact congrArg Host.Outcome.next (State.withCommands_of_commands_eq hcommands).symm
  | cons i is ih =>
    intro s rest hcommands
    have hstep : step s = mapNext (State.withCommands · (is.map encode ++ rest)) (exec i (s.withCommands rest)) := by
      rw [step_of_cons hcommands, runWord_of_ok (decodeOfEncodeIsTheOperation i), ← exec_withCommands]
      rfl
    rw [List.length_cons, runFor_succ, hstep, andThen_mapNext, execAll_cons]
    refine andThen_congr fun u hu => ?_
    have hrun := ih (u.withCommands (is.map encode ++ rest)) rest rfl
    exact hrun.trans (congrArg (execAll is) (State.withCommands_of_commands_eq (exec_commands hu)))

end Sys2Proof.Machine

/-! SUPPORT. What each operation appends to the output trace (spec/44_notify.md R120 to R126, spec/20_memory.md R55). -/

namespace Sys2Proof.Machine

/-- `n` reports of the count and the button state of `t`, with a callback only (R120, R121). -/
def reports (t : State) (n : Nat) : List OutEvent :=
  if t.onChange then List.replicate n (.event t.value t.buttonState) else []

@[simp] theorem reports_zero (t : State) : reports t 0 = [] := by
  simp [reports]

/-- The events operation `i` appends on the way from `s` to `t`. -/
def appended (s t : State) : Instr → List OutEvent
  | .construct => constructionEvents (armedMask s.cfg.pins)
  | .start     => startEvents
  | .stop      => stopEvents
  | i          => reports t (tabulatedReports s t i)

theorem stepCounter_trace (d : Direction) (s : State) :
    (stepCounter d s).trace = s.trace ++ reports (stepCounter d s) 1 := by
  rw [stepCounter_eq]
  rfl

theorem reportButton_trace (level : Bit) (s : State) :
    (reportButton level s).trace = s.trace ++ reports (reportButton level s) 1 := by
  rw [reportButton_eq]
  rfl

/-- A rotation reports exactly when the register it leaves is a terminal code. -/
theorem rotate_trace (clk dt : Bit) (s : State) :
    (rotate clk dt s).trace = s.trace ++ reports (rotate clk dt s) (if (rotate clk dt s).landed then 1 else 0) := by
  have hlanded : (rotate clk dt s).landed = true ↔
      shiftSample s.quadState (sample clk dt) = decrementCode ∨ shiftSample s.quadState (sample clk dt) = incrementCode := by
    simp [State.landed, decrementCode, incrementCode]
  by_cases hdec : shiftSample s.quadState (sample clk dt) = decrementCode
  · rw [if_pos (hlanded.2 (.inl hdec)), rotate_of_decrement s hdec, stepCounter_trace, State.setQuadState_trace]
  · by_cases hinc : shiftSample s.quadState (sample clk dt) = incrementCode
    · rw [if_pos (hlanded.2 (.inr hinc)), rotate_of_increment s hinc, stepCounter_trace, State.setQuadState_trace]
    · rw [if_neg fun h => (hlanded.1 h).elim hdec hinc, rotate_of_other s hdec hinc, State.setQuadState_trace,
        reports_zero, List.append_nil]

theorem switchAlone_iff (p : PinAssignment) (flagged : Port) :
    switchAlone p flagged = true ↔ p.swPresent = true ∧ flagged = switchMask p := by
  simp [switchAlone, switchMask, lineMask]

theorem touchesRotation_iff (p : PinAssignment) (flagged : Port) :
    touchesRotation p flagged = true ↔ flagged &&& rotationMask p ≠ 0#16 := by
  simp [touchesRotation, rotationMask, lineMask]

theorem handleInterrupt_trace (flagged captured : Port) (s : State) :
    (handleInterrupt flagged captured s).trace = s.trace ++
      reports (handleInterrupt flagged captured s) (handlerReports s (handleInterrupt flagged captured s) flagged) := by
  by_cases hswitch : s.pins.swPresent = true ∧ flagged = switchMask s.pins
  · rw [handleInterrupt_of_switchAlone s hswitch, handlerReports, if_pos ((switchAlone_iff _ _).2 hswitch),
      reportButton_trace]
  · have halone : switchAlone s.pins flagged = false := by rwa [← Bool.not_eq_true, switchAlone_iff]
    by_cases hrotation : flagged &&& rotationMask s.pins ≠ 0#16
    · rw [handleInterrupt_of_rotation s hswitch hrotation, rotate_trace, handlerReports, halone,
        (touchesRotation_iff _ _).2 hrotation, Bool.true_and]
      rfl
    · have htouches : touchesRotation s.pins flagged = false := by rwa [← Bool.not_eq_true, touchesRotation_iff]
      simp [handleInterrupt_of_neither s hswitch hrotation, handlerReports, halone, htouches]

/-- What an operation that completes appends. -/
theorem exec_trace {i : Instr} {s t : State} (h : exec i s = .next t) : t.trace = s.trace ++ appended s t i := by
  obtain ⟨rfl, -⟩ := exec_next h
  cases i with
  | construct => rfl
  | onRotation clk dt => exact rotate_trace clk dt s
  | step d => exact stepCounter_trace d s
  | onButton level => exact reportButton_trace level s
  | handleInterrupt f c => exact handleInterrupt_trace f c s
  | start => rfl
  | stop => rfl
  | irq f c =>
    obtain ⟨hbound, hrun⟩ | ⟨hbound, hrun⟩ := deliverInterrupt_cases s f c
    · simpa [appended, tabulatedReports, procedure, hrun, hbound] using handleInterrupt_trace f c s
    · simp [appended, tabulatedReports, procedure, hrun, hbound]

/-- The events of a completed operation, read off any spelling of the trace it leaves. -/
theorem eq_appended {i : Instr} {s t : State} {es : List OutEvent} (h : exec i s = .next t)
    (htrace : t.trace = s.trace ++ es) : es = appended s t i :=
  List.append_cancel_left (htrace.symm.trans (exec_trace h))

/-! ### The reports among the events -/

theorem sinkCount_reports (t : State) (n : Nat) : sinkCount (reports t n) = if t.onChange then n else 0 := by
  unfold reports sinkCount
  split <;> simp [List.countP_replicate, OutEvent.isSink]

/-- Only reports call the callback: the accesses of CONSTRUCT, START and STOP do not. -/
theorem sinkCount_appended (s t : State) (i : Instr) :
    sinkCount (appended s t i) = if t.onChange then tabulatedReports s t i else 0 := by
  cases i with
  | construct => exact (ite_self 0).symm
  | start => exact (ite_self 0).symm
  | stop => exact (ite_self 0).symm
  | _ => exact sinkCount_reports t _

/-- Settles O35: the appended events, and the callback's invocations among them. -/
theorem eachOperationReportsAsTabulated : Obligations.EachOperationReportsAsTabulated := by
  unfold Obligations.EachOperationReportsAsTabulated
  intro i s t h
  refine ⟨appended s t i, exec_trace h, fun hcb => ?_, fun hcb => ?_⟩ <;> rw [sinkCount_appended, hcb] <;> rfl

theorem mem_reports {t : State} {n : Nat} {e : OutEvent} (h : e ∈ reports t n) :
    t.onChange = true ∧ e = .event t.value t.buttonState := by
  unfold reports at h
  split at h
  · exact ⟨‹_›, List.eq_of_mem_replicate h⟩
  · cases h

/-- A report among the appended events is that of the state the operation leaves. -/
theorem event_mem_appended {s t : State} {i : Instr} {v : Int} {b : Bit} (h : .event v b ∈ appended s t i) :
    t.onChange = true ∧ v = t.value ∧ b = t.buttonState := by
  have hreport {n : Nat} (h : .event v b ∈ reports t n) : t.onChange = true ∧ v = t.value ∧ b = t.buttonState := by
    obtain ⟨hcb, he⟩ := mem_reports h
    cases he
    exact ⟨hcb, rfl, rfl⟩
  cases i with
  | construct => simp [appended, constructionEvents] at h
  | start => simp [appended, startEvents] at h
  | stop => simp [appended, stopEvents] at h
  | _ => exact hreport h

end Sys2Proof.Machine

/-! SUPPORT. The invariant (spec/10_state.md R23, R31) and the reports the configuration allows (spec/44_notify.md R120,
R121), kept by every operation, every step and every run. -/

namespace Sys2Proof.Machine

/-! ### Operations -/

theorem exec_cfg {i : Instr} {s t : State} (h : exec i s = .next t) : t.cfg = s.cfg := by
  by_cases hi : i = .construct
  · obtain ⟨rfl, -⟩ := exec_next h
    rw [hi]
    rfl
  · exact (exec_sameSetup hi h).cfg

/-- An operation that completes leaves an existing instance: CONSTRUCT makes it, the others need it. -/
theorem exec_constructed {i : Instr} {s t : State} (h : exec i s = .next t) : t.constructed = true := by
  obtain ⟨rfl, ⟨rfl, -⟩ | ⟨hi, hs⟩⟩ := exec_next h
  · rfl
  · exact (exec_sameSetup hi h).constructed.trans hs

/-- CONSTRUCT copies the record it checked; the other operations keep the copies. -/
theorem exec_keeps_holdsConfig {i : Instr} {s t : State} (hs : i ≠ .construct → s.HoldsConfig) (h : exec i s = .next t) :
    t.HoldsConfig := by
  by_cases hi : i = .construct
  · subst hi
    have hwf := wellFormed_of_exec_construct h
    obtain ⟨rfl, -⟩ := exec_next h
    exact ⟨hwf, rfl, rfl, rfl, rfl⟩
  · have hsame := exec_sameSetup hi h
    obtain ⟨hwf, hmin, hmax, hpins, hcb⟩ := hs hi
    unfold State.HoldsConfig
    rw [hsame.cfg, hsame.minVal, hsame.maxVal, hsame.pins, hsame.onChange]
    exact ⟨hwf, hmin, hmax, hpins, hcb⟩

theorem exec_keeps_inv {i : Instr} {s t : State} (hs : s.Inv) (h : exec i s = .next t) : t.HoldsConfig ∧ t.InBounds := by
  obtain ⟨-, ⟨rfl, -⟩ | ⟨hi, hc⟩⟩ := exec_next h
  · exact ⟨exec_keeps_holdsConfig (fun hne => absurd rfl hne) h, exec_construct_inBounds h⟩
  · obtain ⟨hholds, hbounds⟩ := hs hc
    exact ⟨exec_keeps_holdsConfig (fun _ => hholds) h, exec_keeps_inBounds hbounds h⟩

/-- Settles O36: a report is that of the state left, whose count the invariant keeps within the bounds. -/
theorem reportsCarryTheNewValues : Obligations.ReportsCarryTheNewValues := by
  unfold Obligations.ReportsCarryTheNewValues
  intro i s t es v b hinv h htrace hmem
  rw [eq_appended h htrace] at hmem
  obtain ⟨-, rfl, rfl⟩ := event_mem_appended hmem
  obtain ⟨-, hmin, hmax⟩ := exec_keeps_inv hinv h
  exact ⟨rfl, rfl, hmin, hmax⟩

theorem reportable_iff (c : Config) (e : OutEvent) :
    reportable c e = true ↔ ∀ v b, e = .event v b → c.cbPresent = true ∧ c.minVal ≤ v ∧ v ≤ c.maxVal := by
  cases e with
  | event v b => simp [reportable, and_assoc]
  | _ => simp [reportable]

theorem exec_keeps_traceAllowed {i : Instr} {s t : State} (hinv : s.Inv) (hs : s.TraceAllowed) (h : exec i s = .next t) :
    t.TraceAllowed := by
  intro e he
  rw [exec_trace h, List.mem_append] at he
  obtain hold | hnew := he
  · rw [exec_cfg h]
    exact hs e hold
  · rw [reportable_iff]
    rintro v b rfl
    obtain ⟨hcb, rfl, -⟩ := event_mem_appended hnew
    obtain ⟨⟨-, hmin, hmax, -, hpresent⟩, hlow, hhigh⟩ := exec_keeps_inv hinv h
    exact ⟨hpresent ▸ hcb, hmin ▸ hlow, hmax ▸ hhigh⟩

/-! ### Steps and runs -/

/-- Settles O54: a step is no change or an operation on the state with one word taken off the stream, of which the
invariant does not speak. -/
theorem everyStepKeepsTheInvariant : Obligations.EveryStepKeepsTheInvariant := by
  unfold Obligations.EveryStepKeepsTheInvariant
  intro s t hinv h
  obtain rfl | ⟨i, rest, hexec⟩ := step_next h
  · exact hinv
  · exact fun _ => exec_keeps_inv (s := s.withCommands rest) hinv hexec

/-- Settles O56: what a step appends are the events of one operation, whose reports are those of the state it leaves. -/
theorem everyStepKeepsTheTraceAllowed : Obligations.EveryStepKeepsTheTraceAllowed := by
  unfold Obligations.EveryStepKeepsTheTraceAllowed
  intro s t hinv hs h
  obtain rfl | ⟨i, rest, hexec⟩ := step_next h
  · exact hs
  · exact exec_keeps_traceAllowed (s := s.withCommands rest) hinv hs hexec

theorem afterConstruct_inv {c : Config} (h : c.WellFormed) : (State.afterConstruct c).Inv := by
  obtain ⟨hmin, hmax, -⟩ := id h
  exact fun _ => ⟨⟨h, rfl, rfl, rfl, rfl⟩, hmin, hmax⟩

/-- CONSTRUCT reports nothing. -/
theorem afterConstruct_traceAllowed (c : Config) : (State.afterConstruct c).TraceAllowed := by
  simp [State.TraceAllowed, State.afterConstruct, constructionEvents, reportable]

/-- Settles O55: the record of the reset state is well-formed, and a constructed state meets the invariant. -/
theorem resetMeetsTheInvariant : Obligations.ResetMeetsTheInvariant := by
  unfold Obligations.ResetMeetsTheInvariant
  exact ⟨afterConstruct_inv (by decide), afterConstruct_traceAllowed _, fun c => afterConstruct_inv⟩

/-- What every step keeps holds at the end of every run that answers a next state. -/
theorem runFor_induction {P : State → Prop} (hstep : ∀ s t, P s → step s = .next t → P t) {n : Nat} {s t : State}
    (hs : P s) (h : runFor n s = .next t) : P t := by
  induction n generalizing s with
  | zero =>
    cases h
    exact hs
  | succ n ih =>
    rw [runFor_succ] at h
    obtain ⟨u, hu, hrun⟩ := andThen_next h
    exact ih (hstep s u hs hu) hrun

/-- The instance of record `c` exists and, with its trace, is as every step keeps it. -/
structure Sound (c : Config) (s : State) : Prop where
  constructed : s.constructed = true
  cfg         : s.cfg = c
  inv         : s.Inv
  trace       : s.TraceAllowed

theorem step_keeps_sound {c : Config} {s t : State} (hs : Sound c s) (h : step s = .next t) : Sound c t := by
  have hinv : t.Inv := everyStepKeepsTheInvariant s t hs.inv h
  have htrace : t.TraceAllowed := everyStepKeepsTheTraceAllowed s t hs.inv hs.trace h
  obtain rfl | ⟨i, rest, hexec⟩ := step_next h
  · exact hs
  · exact ⟨exec_constructed hexec, (exec_cfg hexec).trans hs.cfg, hinv, htrace⟩

/-- Settles O57, by induction over the run: the freshly constructed state is sound and every step keeps it so. -/
theorem countAndReportsStayWithinBoundsForever : Obligations.CountAndReportsStayWithinBoundsForever := by
  unfold Obligations.CountAndReportsStayWithinBoundsForever
  intro c ws n t hwf hrun
  have hstart : Sound c ((State.afterConstruct c).withCommands ws) :=
    ⟨rfl, rfl, afterConstruct_inv hwf, afterConstruct_traceAllowed c⟩
  have hend : Sound c t := runFor_induction (fun _ _ => step_keeps_sound) hstart hrun
  obtain ⟨hc, rfl, hinv, htrace⟩ := hend
  obtain ⟨⟨-, hmin, hmax, -, -⟩, hlow, hhigh⟩ := hinv hc
  exact ⟨hmin ▸ hlow, hmax ▸ hhigh, fun v b hmem => (reportable_iff _ _).1 (htrace _ hmem) v b rfl⟩

end Sys2Proof.Machine

/-! SUPPORT. How an operation can end (spec/60_exceptions.md R150, R151, spec/40_construct.md R85), and what CONSTRUCT
leaves (R80, R82). -/

namespace Sys2Proof.Machine

/-! ### The operations other than CONSTRUCT -/

/-- Settles O16: the others run on an existing instance to completion, and are refused on an absent one. -/
theorem noOtherOperationCanFault : Obligations.NoOtherOperationCanFault := by
  unfold Obligations.NoOtherOperationCanFault
  refine ⟨fun i s r h => ?_, fun i s hi hs => ⟨_, exec_of_constructed s hi hs⟩⟩
  by_contra hi
  rw [exec_of_ne_construct s hi] at h
  exact onInstance_ne_fault s h

/-- Settles O17: such an operation is its procedure run on an existing instance, and refused on an absent one. -/
theorem noInstanceNoOperation : Obligations.NoInstanceNoOperation := by
  unfold Obligations.NoInstanceNoOperation
  intro i s hi hs
  rw [exec_of_ne_construct s hi, onInstance_of_absent s hs]

/-! ### CONSTRUCT -/

/-- Settles O15: the checks in their order, each reached when those before it pass. -/
theorem illFormedConfigurationFaults : Obligations.IllFormedConfigurationFaults := by
  unfold Obligations.IllFormedConfigurationFaults
  intro s c overlap outside
  have hfault {cause : ConfigCause} (h : checkConfig c = some cause) :
      exec .construct s = .fault (.configViolation cause) := by
    simp only [exec, execConstruct, raiseConfigViolation, show checkConfig s.cfg = _ from h]
  refine ⟨fun hbounds => hfault ?_, fun hbounds hinit => hfault ?_, fun hmin hmax hout => hfault ?_,
    fun hmin hmax hin hover => hfault ?_, ?_⟩
  · rw [checkConfig, if_pos hbounds]
  · rw [checkConfig, if_neg (by omega), if_pos hinit]
  · rw [checkConfig, if_neg (by omega), if_neg (by omega), if_pos hout]
  · rw [checkConfig, if_neg (by omega), if_neg (by omega), if_neg hin, if_pos hover]
  · constructor
    · rintro ⟨r, hr⟩ hwf
      rw [exec_construct_of_wellFormed s hwf] at hr
      cases hr
    · intro hill
      obtain ⟨cause, hcause⟩ := Option.ne_none_iff_exists'.1 fun hnone => hill ((checkConfig_eq_none_iff c).1 hnone)
      exact ⟨_, hfault hcause⟩

/-- Settles O18: CONSTRUCT writes every register and starts from an empty trace and an empty stream. -/
theorem resetIsTheFirstConstruct : Obligations.ResetIsTheFirstConstruct := by
  unfold Obligations.ResetIsTheFirstConstruct
  exact ⟨fun c hwf => exec_construct_of_wellFormed (State.beforeConstruct c) hwf, rfl, by decide⟩

/-- The armed mask as one OR, an absent switch adding no bit (R72). -/
theorem armedMask_eq (p : PinAssignment) :
    armedMask p = (1#16 <<< p.clkBit) ||| (1#16 <<< p.dtBit) ||| (if p.swPresent then 1#16 <<< p.swBit else 0#16) := by
  cases h : p.swPresent <;> simp [armedMask, rotationMask, switchMask, lineMask, h]

/-- Settles O12: the procedure of CONSTRUCT writes these registers, and its events carry the armed mask. -/
theorem constructLoadsConfigAndArmsLines : Obligations.ConstructLoadsConfigAndArmsLines := by
  unfold Obligations.ConstructLoadsConfigAndArmsLines
  intro s hwf
  rw [exec_construct_of_wellFormed s hwf, ← armedMask_eq]
  rfl

/-- Settles O13: the five events in their order D12 are the line initialisation moved behind the four OR-writes. -/
theorem firstConstructWhateverTheEventOrder : Obligations.FirstConstructWhateverTheEventOrder := by
  unfold Obligations.FirstConstructWhateverTheEventOrder
  intro s _ hwf
  have hperm := List.perm_append_singleton (OutEvent.lineInit .input)
    ([OrRegister.mode, .pullup, .inputPolarity, .interruptEnable].map (OutEvent.portOr · (armedMask s.cfg.pins)))
  exact ⟨procedure .construct s, _, exec_construct_of_wellFormed s hwf,
    rfl, rfl, rfl, rfl, rfl, rfl, rfl, rfl, rfl, rfl, rfl, hperm⟩

end Sys2Proof.Machine

/-! SUPPORT. The callback is an output only (spec/44_notify.md R122): whether it is present, and what was emitted, reaches
no other part of the state. -/

namespace Sys2Proof.Machine

/-- The state without the callback bit and the trace. -/
def State.silenced (s : State) : State := { s with onChange := false, trace := [] }

theorem stepCounter_silenced (d : Direction) (s : State) :
    (stepCounter d s.silenced).silenced = (stepCounter d s).silenced := by
  rw [stepCounter_eq, stepCounter_eq]
  rfl

theorem reportButton_silenced (level : Bit) (s : State) :
    (reportButton level s.silenced).silenced = (reportButton level s).silenced := by
  rw [reportButton_eq, reportButton_eq]
  rfl

theorem rotate_silenced (clk dt : Bit) (s : State) : (rotate clk dt s.silenced).silenced = (rotate clk dt s).silenced := by
  simp only [rotate, State.silenced]
  cases terminalStep (shiftSample s.quadState (sample clk dt)) with
  | none => rfl
  | some d => exact stepCounter_silenced d (s.setQuadState _)

theorem handleInterrupt_silenced (flagged captured : Port) (s : State) :
    (handleInterrupt flagged captured s.silenced).silenced = (handleInterrupt flagged captured s).silenced := by
  by_cases hswitch : s.pins.swPresent = true ∧ flagged = switchMask s.pins
  · rw [handleInterrupt_of_switchAlone s hswitch, handleInterrupt_of_switchAlone s.silenced hswitch]
    exact reportButton_silenced _ s
  · by_cases hrotation : flagged &&& rotationMask s.pins ≠ 0#16
    · rw [handleInterrupt_of_rotation s hswitch hrotation, handleInterrupt_of_rotation s.silenced hswitch hrotation]
      exact rotate_silenced _ _ s
    · rw [handleInterrupt_of_neither s hswitch hrotation, handleInterrupt_of_neither s.silenced hswitch hrotation]
      rfl

theorem deliverInterrupt_of_bound {s : State} (h : s.bound = true) {flagged captured : Port} :
    deliverInterrupt flagged captured s = handleInterrupt flagged captured s := if_pos h

theorem deliverInterrupt_of_not_bound {s : State} (h : s.bound = false) {flagged captured : Port} :
    deliverInterrupt flagged captured s = s := by
  simp [deliverInterrupt, h]

theorem procedure_silenced (i : Instr) (s : State) : (procedure i s.silenced).silenced = (procedure i s).silenced := by
  cases i with
  | construct => rfl
  | onRotation clk dt => exact rotate_silenced clk dt s
  | step d => exact stepCounter_silenced d s
  | onButton level => exact reportButton_silenced level s
  | handleInterrupt f c => exact handleInterrupt_silenced f c s
  | start => rfl
  | stop => rfl
  | irq f c =>
    cases hbound : s.bound with
    | true =>
      rw [procedure, procedure, deliverInterrupt_of_bound hbound, deliverInterrupt_of_bound (s := s.silenced) hbound]
      exact handleInterrupt_silenced f c s
    | false =>
      rw [procedure, procedure, deliverInterrupt_of_not_bound hbound,
        deliverInterrupt_of_not_bound (s := s.silenced) hbound]
      rfl

/-- Settles O37: the state with another callback bit and another trace is the same silenced state, and an outcome but for
the two is fixed by the silenced state. -/
theorem stateDoesNotDependOnTheCallback : Obligations.StateDoesNotDependOnTheCallback := by
  unfold Obligations.StateDoesNotDependOnTheCallback
  intro i s cb tr
  have hprocedure (u : State) (hu : u.silenced = s.silenced) : (procedure i u).silenced = (procedure i s).silenced := by
    rw [← procedure_silenced, hu, procedure_silenced]
  exact mapNext_exec_congr rfl rfl (hprocedure { s with onChange := cb, trace := tr } rfl)

end Sys2Proof.Machine

/-! SUPPORT. The clamped count (spec/42_counter.md R101, R103 to R107): the forms of the clamp, steps at a bound, and the
two finite-width forms of STEP. -/

namespace Sys2Proof.Machine

/-- Settles O21: each form in each of the three cases of clamp. -/
theorem clampIsTheThreeCaseFunction : Obligations.ClampIsTheThreeCaseFunction := by
  unfold Obligations.ClampIsTheThreeCaseFunction
  intro x lo hi h
  obtain ⟨hx, hclamp⟩ | ⟨hlo, hx, hclamp⟩ | ⟨hlo, hhi, hclamp⟩ := clamp_cases x lo hi <;>
    rw [hclamp] <;> refine ⟨?_, ?_, ?_, ?_, ?_⟩ <;> omega

/-- R103 for an increment: the clamped sum of a count within the bounds forms no number outside them. -/
theorem clamp_add_inc {v lo hi : Int} (hlo : lo ≤ v) (hhi : v ≤ hi) :
    clamp (v + Direction.inc.delta) lo hi = if hi ≤ v then hi else v + 1 := by
  have hclamp := clamp_cases (v + 1) lo hi
  rw [Direction.delta]
  split <;> omega

/-- R103 for a decrement. -/
theorem clamp_add_dec {v lo hi : Int} (hlo : lo ≤ v) (hhi : v ≤ hi) :
    clamp (v + Direction.dec.delta) lo hi = if v ≤ lo then lo else v - 1 := by
  have hclamp := clamp_cases (v + -1) lo hi
  rw [Direction.delta]
  split <;> omega

/-! ### STEP as a run of the machine -/

theorem exec_step_of_constructed {s : State} (hs : s.constructed = true) (d : Direction) :
    exec (.step d) s = .next (stepCounter d s) := exec_of_constructed s nofun hs

@[simp] theorem stepCounter_value (d : Direction) (s : State) :
    (stepCounter d s).value = clamp (s.value + d.delta) s.minVal s.maxVal := by
  rw [stepCounter_eq]

/-- Settles O22: the clamped sum of a count within the bounds, by the cases of clamp. -/
theorem stepSaturatesAtTheBounds : Obligations.StepSaturatesAtTheBounds := by
  unfold Obligations.StepSaturatesAtTheBounds
  rintro s hs ⟨hmin, hmax⟩
  exact ⟨⟨_, exec_step_of_constructed hs .inc, (stepCounter_value .inc s).trans (clamp_add_inc hmin hmax)⟩,
    ⟨_, exec_step_of_constructed hs .dec, (stepCounter_value .dec s).trans (clamp_add_dec hmin hmax)⟩⟩

/-- Steps that clamp back to the count they start from leave no mark on it, however many they are. -/
theorem execAll_lost_steps {d : Direction} (d' : Direction) (n : Nat) {s : State} (hs : s.constructed = true)
    (hlost : clamp (s.value + d.delta) s.minVal s.maxVal = s.value) :
    ∃ t, execAll (List.replicate n (.step d) ++ [.step d']) s = .next t ∧
      t.value = clamp (s.value + d'.delta) s.minVal s.maxVal := by
  induction n generalizing s with
  | zero =>
    refine ⟨stepCounter d' s, ?_, stepCounter_value d' s⟩
    rw [List.replicate_zero, List.nil_append, execAll_cons, exec_step_of_constructed hs]
    rfl
  | succ n ih =>
    have hsame := stepCounter_sameSetup s d
    have hvalue : (stepCounter d s).value = s.value := (stepCounter_value d s).trans hlost
    obtain ⟨t, hrun, ht⟩ := ih (hsame.constructed.trans hs) (by rw [hvalue, hsame.minVal, hsame.maxVal, hlost])
    rw [hvalue, hsame.minVal, hsame.maxVal] at ht
    refine ⟨t, ?_, ht⟩
    rw [List.replicate_succ, List.cons_append, execAll_cons, exec_step_of_constructed hs]
    exact hrun

/-- Settles O23: at a bound the steps towards it are lost, so the one step away from it starts from the bound. -/
theorem lostStepsAreNotRemembered : Obligations.LostStepsAreNotRemembered := by
  unfold Obligations.LostStepsAreNotRemembered
  intro s n hs hbounds
  refine ⟨fun hmax => ?maximum, fun hmin => ?minimum⟩
  case maximum =>
    have hinc := clamp_add_inc (v := s.value) (hmax ▸ hbounds.le) hmax.le
    have hdec := clamp_add_dec (v := s.value) (hmax ▸ hbounds.le) hmax.le
    obtain ⟨t, hrun, ht⟩ := execAll_lost_steps .dec n hs (hinc.trans (by rw [if_pos hmax.ge, hmax]))
    exact ⟨t, hrun, ht.trans (by rw [hdec, if_neg (by omega), hmax])⟩
  case minimum =>
    have hinc := clamp_add_inc (v := s.value) hmin.ge (hmin ▸ hbounds.le)
    have hdec := clamp_add_dec (v := s.value) hmin.ge (hmin ▸ hbounds.le)
    obtain ⟨t, hrun, ht⟩ := execAll_lost_steps .inc n hs (hdec.trans (by rw [if_pos hmin.le, hmin]))
    exact ⟨t, hrun, ht.trans (by rw [hinc, if_neg (by omega), hmin])⟩

/-! ### Finite widths -/

/-- A sum formed in `n` bits is the integer's sum if that sum is an `n`-bit number. -/
theorem toInt_add_ofInt {n : Nat} (hn : 0 < n) (v : BitVec n) (k : Int) (hlow : -2 ^ (n - 1) ≤ v.toInt + k)
    (hhigh : v.toInt + k < 2 ^ (n - 1)) : (v + BitVec.ofInt n k).toInt = v.toInt + k := by
  have hsum : v + BitVec.ofInt n k = BitVec.ofInt n (v.toInt + k) := by
    rw [BitVec.ofInt_add, BitVec.ofInt_toInt]
  rw [hsum, BitVec.toInt_ofInt_eq_self hn hlow hhigh]

/-- Dropping high bits keeps a number that fits the bits kept. -/
theorem toInt_setWidth_of_fits {n W : Nat} (hW : 0 < W) (hle : W ≤ n) (x : BitVec n) (hlow : -2 ^ (W - 1) ≤ x.toInt)
    (hhigh : x.toInt < 2 ^ (W - 1)) : (x.setWidth W).toInt = x.toInt := by
  rw [← BitVec.signExtend_eq_setWidth_of_le x hle, BitVec.toInt_signExtend_eq_toInt_bmod_of_le x hle,
    ← BitVec.toInt_ofInt, BitVec.toInt_ofInt_eq_self hW hlow hhigh]

theorem narrowStep_toInt {W : Nat} (hW : 1 ≤ W) (d : Direction) {v lo hi : BitVec W} (hlo : lo.toInt ≤ v.toInt)
    (hhi : v.toInt ≤ hi.toInt) : (narrowStep d v lo hi).toInt = clamp (v.toInt + d.delta) lo.toInt hi.toInt := by
  have hlow := lo.le_toInt
  have hhigh := hi.toInt_lt
  cases d with
  | inc =>
    rw [clamp_add_inc hlo hhi, narrowStep]
    simp only [BitVec.sle_iff_toInt_le]
    split
    · rfl
    · exact toInt_add_ofInt hW v 1 (by omega) (by omega)
  | dec =>
    rw [clamp_add_dec hlo hhi, narrowStep, BitVec.sub_eq_add_neg, ← BitVec.ofInt_ofNat, ← BitVec.ofInt_neg]
    simp only [BitVec.sle_iff_toInt_le]
    split
    · rfl
    · exact toInt_add_ofInt hW v (-1) (by omega) (by omega)

theorem wideStep_toInt {W : Nat} (hW : 1 ≤ W) (d : Direction) {v lo hi : BitVec W} (hlo : lo.toInt ≤ v.toInt)
    (hhi : v.toInt ≤ hi.toInt) : (wideStep d v lo hi).toInt = clamp (v.toInt + d.delta) lo.toInt hi.toInt := by
  have hlow := lo.le_toInt
  have hhigh := hi.toInt_lt
  have hpow : (2 : Int) ^ W = 2 * 2 ^ (W - 1) := by
    rw [← Int.pow_succ', Nat.sub_add_cancel hW]
  have hone : (1 : Int) ≤ 2 ^ (W - 1) := one_le_pow₀ (by decide)
  have hdelta : d.delta = 1 ∨ d.delta = -1 := by cases d <;> simp [Direction.delta]
  have hext (x : BitVec W) : (x.signExtend (W + 1)).toInt = x.toInt := BitVec.toInt_signExtend_of_le (by omega)
  have hsum : (v.signExtend (W + 1) + BitVec.ofInt (W + 1) d.delta).toInt = v.toInt + d.delta := by
    rw [toInt_add_ofInt (by omega) _ _ ?_ ?_, hext] <;> rw [hext, Nat.add_sub_cancel, hpow] <;> omega
  unfold wideStep clamp
  simp only [BitVec.slt_iff_toInt_lt, hext, hsum]
  split_ifs with h1 h2
  · rfl
  · rfl
  · rw [toInt_setWidth_of_fits (by omega) (by omega) _ _ _, hsum] <;> rw [hsum] <;> omega

/-- Settles O24: under the bounds no sum either form makes leaves the width it is formed in. -/
theorem finiteWidthStepIsTheIntegerStep : Obligations.FiniteWidthStepIsTheIntegerStep := by
  unfold Obligations.FiniteWidthStepIsTheIntegerStep
  exact fun W d v lo hi hW hlo hhi => ⟨narrowStep_toInt hW d hlo hhi, wideStep_toInt hW d hlo hhi⟩

end Sys2Proof.Machine

/-! SUPPORT. Runs of several operations on an existing instance, as the composition of their procedures. -/

namespace Sys2Proof.Machine

/-- The state the procedures of a list of operations make one after another. -/
def procedures (is : List Instr) (s : State) : State := is.foldl (fun u i => procedure i u) s

theorem procedures_append (is js : List Instr) (s : State) : procedures (is ++ js) s = procedures js (procedures is s) :=
  List.foldl_append

theorem execAll_of_constructed {is : List Instr} (hne : ∀ i ∈ is, i ≠ .construct) {s : State}
    (hs : s.constructed = true) : execAll is s = .next (procedures is s) := by
  induction is generalizing s with
  | nil => rfl
  | cons i is ih =>
    obtain ⟨hi, hne⟩ := List.forall_mem_cons.1 hne
    rw [execAll_cons, exec_of_constructed s hi hs]
    exact ih hne ((procedure_sameSetup s hi).constructed.trans hs)

/-- A run of at least one operation that answers a next state started on an existing instance, if CONSTRUCT is not
among its operations. -/
theorem constructed_of_execAll_next {is : List Instr} (hne : ∀ i ∈ is, i ≠ .construct) (hnil : is ≠ []) {s t : State}
    (h : execAll is s = .next t) : s.constructed = true := by
  cases is with
  | nil => exact absurd rfl hnil
  | cons i is =>
    rw [execAll_cons] at h
    obtain ⟨u, hu, -⟩ := andThen_next h
    have hi := hne i List.mem_cons_self
    exact (exec_sameSetup hi hu).constructed.symm.trans (exec_constructed hu)

end Sys2Proof.Machine

/-! SUPPORT. The shift register of ON_ROTATION as a number (spec/41_quadrature.md R92, R93, R97 to R99), and runs of
samples. -/

namespace Sys2Proof.Machine

/-! ### One shift -/

/-- Entering a sample behind an 8-bit number drops its two high bits (R93). -/
theorem toNat_shiftLeft_or_sample (q : QuadReg) (x : Sample) :
    ((q <<< 2) ||| x.setWidth 8).toNat = 4 * (q.toNat % 64) + x.toNat := by
  have hx := x.isLt
  have hshift : q.toNat * 2 ^ 2 % 2 ^ 8 = (q.toNat % 64) * 2 ^ 2 := by omega
  have hsample : x.toNat % 2 ^ 8 = x.toNat := by omega
  rw [BitVec.toNat_or, BitVec.toNat_shiftLeft, Nat.shiftLeft_eq, hshift, BitVec.toNat_setWidth, hsample,
    ← Nat.shiftLeft_eq, ← Nat.shiftLeft_add_eq_or_of_lt hx, Nat.shiftLeft_eq]
  omega

theorem toNat_and_historyMask (q : QuadReg) : (q &&& historyMask).toNat = q.toNat % 64 :=
  Nat.and_two_pow_sub_one_eq_mod q.toNat 6

theorem shiftSample_toNat (q : QuadReg) (x : Sample) : (shiftSample q x).toNat = 4 * (q.toNat % 64) + x.toNat := by
  rw [shiftSample, toNat_shiftLeft_or_sample, toNat_and_historyMask, Nat.mod_mod]

/-- Settles O26: as numbers, masked or not, the shift is `4 q + s` without its two high bits. -/
theorem maskedShiftIsTruncatingShift : Obligations.MaskedShiftIsTruncatingShift := by
  unfold Obligations.MaskedShiftIsTruncatingShift
  intro q x
  have hx := x.isLt
  refine ⟨BitVec.eq_of_toNat_eq ?_, ?_⟩
  · rw [shiftSample_toNat, toNat_shiftLeft_or_sample]
  · rw [shiftSample_toNat]
    omega

theorem sample_toNat (clk dt : Bit) : (sample clk dt).toNat = 2 * clk.toNat + dt.toNat := by
  decide +revert

/-- The register is the number of the last four samples, whatever it held before them (R24). -/
theorem shiftSample_four_toNat (q : QuadReg) (a b c d : Sample) :
    (shiftSample (shiftSample (shiftSample (shiftSample q a) b) c) d).toNat =
      64 * a.toNat + 16 * b.toNat + 4 * c.toNat + d.toNat := by
  have ha := a.isLt
  have hb := b.isLt
  have hc := c.isLt
  simp only [shiftSample_toNat]
  omega

/-- Any code whose number is `4 n` is reached exactly by the sample (0, 0) from the registers with low six bits `n`. -/
theorem shiftSample_eq_iff (q : QuadReg) (clk dt : Bit) {code low : QuadReg} (hcode : code.toNat = 4 * low.toNat) :
    shiftSample q (sample clk dt) = code ↔ (clk = 0 ∧ dt = 0) ∧ q &&& 0x3F = low := by
  have hhistory : (q &&& 0x3F).toNat = q.toNat % 64 := toNat_and_historyMask q
  have hclk := clk.isLt
  have hdt := dt.isLt
  have hzero : (0 : Bit).toNat = 0 := rfl
  rw [← BitVec.toNat_inj, ← BitVec.toNat_inj, ← BitVec.toNat_inj, ← BitVec.toNat_inj, shiftSample_toNat, sample_toNat,
    hcode, hhistory, hzero]
  omega

theorem shiftSample_eq_decrementCode_iff (q : QuadReg) (clk dt : Bit) :
    shiftSample q (sample clk dt) = decrementCode ↔ (clk = 0 ∧ dt = 0) ∧ q &&& 0x3F = 45 :=
  shiftSample_eq_iff q clk dt rfl

theorem shiftSample_eq_incrementCode_iff (q : QuadReg) (clk dt : Bit) :
    shiftSample q (sample clk dt) = incrementCode ↔ (clk = 0 ∧ dt = 0) ∧ q &&& 0x3F = 30 :=
  shiftSample_eq_iff q clk dt rfl

/-- Settles O27: each terminal code is reached by one sample from the registers of one low part, and a rotation that
reaches neither only writes the register. -/
theorem stepsExactlyFromTheEightPairs : Obligations.StepsExactlyFromTheEightPairs := by
  unfold Obligations.StepsExactlyFromTheEightPairs
  intro s clk dt hs zero
  have hdec := shiftSample_eq_decrementCode_iff s.quadState clk dt
  have hinc := shiftSample_eq_incrementCode_iff s.quadState clk dt
  refine ⟨fun hlow hzero => ?decrement, fun hlow hzero => ?increment, fun hother => ?other⟩
  case decrement =>
    exact exec_onRotation_of_rotate_eq_stepCounter (rotate_of_decrement s (hdec.2 ⟨hzero, hlow⟩))
  case increment =>
    exact exec_onRotation_of_rotate_eq_stepCounter (rotate_of_increment s (hinc.2 ⟨hzero, hlow⟩))
  case other =>
    have hndec : shiftSample s.quadState (sample clk dt) ≠ decrementCode := fun h =>
      hother ⟨(hdec.1 h).1, .inl (hdec.1 h).2⟩
    have hninc : shiftSample s.quadState (sample clk dt) ≠ incrementCode := fun h =>
      hother ⟨(hinc.1 h).1, .inr (hinc.1 h).2⟩
    refine ⟨_, hndec, hninc, (exec_of_constructed s (i := .onRotation clk dt) nofun hs).trans ?_⟩
    exact congrArg Host.Outcome.next (rotate_of_other s hndec hninc)

/-! ### Runs of samples -/

/-- The number a list of samples spells in base 4 behind `n`. -/
def spelled (samples : List (Bit × Bit)) (n : Nat) : Nat :=
  samples.foldl (fun n p => 4 * n + 2 * p.1.toNat + p.2.toNat) n

theorem execAll_rotations {s : State} (hs : s.constructed = true) (samples : List (Bit × Bit)) :
    execAll (rotations samples) s = .next (procedures (rotations samples) s) :=
  execAll_of_constructed rotations_ne_construct hs

theorem procedures_rotations_append (samples : List (Bit × Bit)) (clk dt : Bit) (s : State) :
    procedures (rotations (samples ++ [(clk, dt)])) s = rotate clk dt (procedures (rotations samples) s) := by
  rw [rotations, List.map_append, procedures_append]
  rfl

theorem spelled_append (samples : List (Bit × Bit)) (clk dt : Bit) (n : Nat) :
    spelled (samples ++ [(clk, dt)]) n = 4 * spelled samples n + 2 * clk.toNat + dt.toNat :=
  List.foldl_append

theorem procedures_rotations_quadState (samples : List (Bit × Bit)) (s : State) :
    (procedures (rotations samples) s).quadState.toNat = spelled samples s.quadState.toNat % 256 := by
  induction samples using List.reverseRecOn with
  | nil => exact (Nat.mod_eq_of_lt s.quadState.isLt).symm
  | append_singleton samples p ih =>
    obtain ⟨clk, dt⟩ := p
    have hclk := clk.isLt
    have hdt := dt.isLt
    rw [procedures_rotations_append, rotate_quadState, shiftSample_toNat, ih, sample_toNat, spelled_append]
    omega

@[simp] theorem rotate_bound (s : State) (clk dt : Bit) : (rotate clk dt s).bound = s.bound := by
  obtain ⟨d, q, h⟩ | ⟨q, h⟩ := rotate_cases s clk dt <;> simp [h, stepCounter_eq]

theorem procedures_rotations_frame (samples : List (Bit × Bit)) (s : State) :
    (procedures (rotations samples) s).buttonState = s.buttonState ∧
      (procedures (rotations samples) s).bound = s.bound := by
  induction samples using List.reverseRecOn with
  | nil => exact ⟨rfl, rfl⟩
  | append_singleton samples p ih =>
    rw [procedures_rotations_append, rotate_buttonState, rotate_bound]
    exact ih

/-- Settles O28, by induction over the samples. -/
theorem registerHoldsTheLastFourSamples : Obligations.RegisterHoldsTheLastFourSamples := by
  unfold Obligations.RegisterHoldsTheLastFourSamples
  intro samples s hs
  obtain ⟨hbutton, hbound⟩ := procedures_rotations_frame samples s
  exact ⟨_, execAll_rotations hs samples, procedures_rotations_quadState samples s, hbutton, hbound⟩

/-- The four samples a register value spells, oldest first (R24). -/
def samplesOf (q : QuadReg) : List (Bit × Bit) :=
  [(q.extractLsb' 7 1, q.extractLsb' 6 1), (q.extractLsb' 5 1, q.extractLsb' 4 1), (q.extractLsb' 3 1, q.extractLsb' 2 1),
    (q.extractLsb' 1 1, q.extractLsb' 0 1)]

theorem spelled_samplesOf (q : QuadReg) (n : Nat) : spelled (samplesOf q) n = 256 * n + q.toNat := by
  have hq := q.isLt
  simp only [spelled, samplesOf, List.foldl_cons, List.foldl_nil, BitVec.extractLsb'_toNat, Nat.shiftRight_eq_div_pow]
  omega

/-- Settles O29: the samples are the ones the value spells. -/
theorem everyRegisterValueIsReachable : Obligations.EveryRegisterValueIsReachable := by
  unfold Obligations.EveryRegisterValueIsReachable
  intro s q hs
  refine ⟨samplesOf q, _, rfl, execAll_rotations hs _, BitVec.eq_of_toNat_eq ?_⟩
  have hq := q.isLt
  rw [procedures_rotations_quadState, spelled_samplesOf]
  omega

/-! ### Two steps are four calls apart -/

theorem spelled_bounds (samples : List (Bit × Bit)) (n : Nat) :
    n * 4 ^ samples.length ≤ spelled samples n ∧ spelled samples n < (n + 1) * 4 ^ samples.length := by
  induction samples using List.reverseRecOn with
  | nil => simp [spelled]
  | append_singleton samples p ih =>
    obtain ⟨clk, dt⟩ := p
    have hclk := clk.isLt
    have hdt := dt.isLt
    rw [spelled_append, List.length_append, List.length_singleton, pow_succ, ← Nat.mul_assoc, ← Nat.mul_assoc]
    omega

/-- One to three samples behind a terminal code spell no terminal code: the code's own samples are still in the
register. -/
theorem spelled_behind_terminal_code {samples : List (Bit × Bit)} (hlow : 1 ≤ samples.length)
    (hhigh : samples.length ≤ 3) {n : Nat} (hn : n = 180 ∨ n = 120) :
    spelled samples n % 256 ≠ 180 ∧ spelled samples n % 256 ≠ 120 := by
  have hbounds := spelled_bounds samples n
  obtain hlength | hlength | hlength : samples.length = 1 ∨ samples.length = 2 ∨ samples.length = 3 := by omega
  all_goals
    rw [hlength] at hbounds
    obtain rfl | rfl := hn <;> omega

/-- A call whose register is no terminal code leaves the count and the trace alone. -/
theorem rotate_quiet {s : State} {clk dt : Bit} (hdec : (rotate clk dt s).quadState ≠ decrementCode)
    (hinc : (rotate clk dt s).quadState ≠ incrementCode) :
    (rotate clk dt s).value = s.value ∧ (rotate clk dt s).trace = s.trace := by
  rw [rotate_quadState] at hdec hinc
  rw [rotate_of_other s hdec hinc]
  exact ⟨rfl, rfl⟩

/-- The register stays off both codes for one to three calls after a terminal code. -/
theorem procedures_rotations_off_codes {samples : List (Bit × Bit)} (hlow : 1 ≤ samples.length)
    (hhigh : samples.length ≤ 3) {s : State} (hs : s.quadState = 180 ∨ s.quadState = 120) :
    (procedures (rotations samples) s).quadState ≠ 180 ∧ (procedures (rotations samples) s).quadState ≠ 120 := by
  have hn : s.quadState.toNat = 180 ∨ s.quadState.toNat = 120 := hs.imp (congrArg BitVec.toNat) (congrArg BitVec.toNat)
  rw [ne_eq, ne_eq, ← BitVec.toNat_inj, ← BitVec.toNat_inj, procedures_rotations_quadState]
  exact spelled_behind_terminal_code hlow hhigh hn

theorem procedures_rotations_quiet {samples : List (Bit × Bit)} (hhigh : samples.length ≤ 3) {s : State}
    (hs : s.quadState = 180 ∨ s.quadState = 120) :
    (procedures (rotations samples) s).value = s.value ∧ (procedures (rotations samples) s).trace = s.trace := by
  induction samples using List.reverseRecOn with
  | nil => exact ⟨rfl, rfl⟩
  | append_singleton samples p ih =>
    obtain ⟨clk, dt⟩ := p
    have hlength : (samples ++ [(clk, dt)]).length = samples.length + 1 := List.length_append
    obtain ⟨hdec, hinc⟩ := procedures_rotations_off_codes (by omega) hhigh hs
    rw [procedures_rotations_append] at hdec hinc ⊢
    obtain ⟨hvalue, htrace⟩ := rotate_quiet hdec hinc
    obtain ⟨ihvalue, ihtrace⟩ := ih (by omega)
    exact ⟨hvalue.trans ihvalue, htrace.trans ihtrace⟩

/-- Settles O30: none of the calls behind a terminal code reaches one, so none of them steps. -/
theorem stepsAreFourCallsApart : Obligations.StepsAreFourCallsApart := by
  unfold Obligations.StepsAreFourCallsApart
  intro s t samples hterminal hlow hhigh h
  have hnil : rotations samples ≠ [] := fun hnil => by
    rw [List.map_eq_nil_iff.1 hnil] at hlow
    exact absurd hlow (by decide)
  rw [execAll_rotations (constructed_of_execAll_next rotations_ne_construct hnil h)] at h
  cases h
  obtain ⟨hdec, hinc⟩ := procedures_rotations_off_codes hlow hhigh hterminal
  obtain ⟨hvalue, htrace⟩ := procedures_rotations_quiet hhigh hterminal
  exact ⟨hdec, hinc, hvalue, htrace⟩

/-! ### Windows of four samples -/

/-- A sample other than (0, 0) never steps: it lands on no terminal code. -/
theorem rotate_of_nonzero_sample {clk dt : Bit} (h : ¬ (clk = 0 ∧ dt = 0)) (s : State) :
    rotate clk dt s = s.setQuadState (shiftSample s.quadState (sample clk dt)) :=
  rotate_of_other s (fun hdec => h ((shiftSample_eq_decrementCode_iff _ _ _).1 hdec).1)
    fun hinc => h ((shiftSample_eq_incrementCode_iff _ _ _).1 hinc).1

/-- Three samples other than (0, 0) only shift the register. -/
theorem rotate_three_nonzero_samples {a b c d e f : Bit} (hab : ¬ (a = 0 ∧ b = 0)) (hcd : ¬ (c = 0 ∧ d = 0))
    (hef : ¬ (e = 0 ∧ f = 0)) (s : State) :
    rotate e f (rotate c d (rotate a b s)) =
      s.setQuadState (shiftSample (shiftSample (shiftSample s.quadState (sample a b)) (sample c d)) (sample e f)) := by
  rw [rotate_of_nonzero_sample hab, rotate_of_nonzero_sample hcd, rotate_of_nonzero_sample hef]
  rfl

theorem rotDec_procedures (s : State) :
    procedures Pseudo.rotDec.expand s = stepCounter .dec (s.setQuadState decrementCode) := by
  have hthree := rotate_three_nonzero_samples (a := 1) (b := 0) (c := 1) (d := 1) (e := 0) (f := 1)
    (by decide) (by decide) (by decide) s
  have hfour : rotate 0 0 (rotate 0 1 (rotate 1 1 (rotate 1 0 s))) =
      stepCounter .dec (s.setQuadState decrementCode) := by
    rw [hthree]
    exact rotate_of_decrement _ (BitVec.eq_of_toNat_eq (shiftSample_four_toNat _ _ _ _ _))
  exact hfour

theorem rotInc_procedures (s : State) :
    procedures Pseudo.rotInc.expand s = stepCounter .inc (s.setQuadState incrementCode) := by
  have hthree := rotate_three_nonzero_samples (a := 0) (b := 1) (c := 1) (d := 1) (e := 1) (f := 0)
    (by decide) (by decide) (by decide) s
  have hfour : rotate 0 0 (rotate 1 0 (rotate 1 1 (rotate 0 1 s))) =
      stepCounter .inc (s.setQuadState incrementCode) := by
    rw [hthree]
    exact rotate_of_increment _ (BitVec.eq_of_toNat_eq (shiftSample_four_toNat _ _ _ _ _))
  exact hfour

/-- Settles O31: the first three samples of a window only shift, and with the fourth the register holds the window
alone, which is the terminal code. -/
theorem rotationWindowsStepExactlyOnce : Obligations.RotationWindowsStepExactlyOnce := by
  unfold Obligations.RotationWindowsStepExactlyOnce
  intro s hs
  have hwindow {p : Pseudo} {d : Direction} {q : QuadReg} (hne : ∀ i ∈ p.expand, i ≠ .construct)
      (h : procedures p.expand s = stepCounter d (s.setQuadState q)) :
      execAll p.expand s = exec (.step d) (s.setQuadState q) := by
    rw [execAll_of_constructed hne hs, h, exec_step_of_constructed (s := s.setQuadState q) hs]
  exact ⟨hwindow (by decide) (rotDec_procedures s), hwindow (by decide) (rotInc_procedures s)⟩

theorem rotate_only_shifts {clk dt : Bit} {q q' : QuadReg} (hq : shiftSample q (sample clk dt) = q')
    (hdec : q' ≠ decrementCode) (hinc : q' ≠ incrementCode) (s : State) :
    rotate clk dt (s.setQuadState q) = s.setQuadState q' := by
  subst hq
  exact rotate_of_other (s.setQuadState q) hdec hinc

/-- Settles O32: none of the four registers 2, 8, 33 and 135 the window passes is a terminal code. -/
theorem misprintedWindowDoesNotStep : Obligations.MisprintedWindowDoesNotStep := by
  unfold Obligations.MisprintedWindowDoesNotStep
  intro s hs hclear
  have hstart : s = s.setQuadState 0 := by
    rw [← hclear]
    rfl
  have hwindow : rotate 1 1 (rotate 0 1 (rotate 0 0 (rotate 1 0 (s.setQuadState 0)))) = s.setQuadState 135 := by
    rw [rotate_only_shifts (q' := 2) rfl (by decide) (by decide), rotate_only_shifts (q' := 8) rfl (by decide) (by decide),
      rotate_only_shifts (q' := 33) rfl (by decide) (by decide), rotate_only_shifts (q' := 135) rfl (by decide) (by decide)]
  rw [execAll_rotations hs]
  exact congrArg Host.Outcome.next ((congrArg _ hstart).trans hwindow)

end Sys2Proof.Machine

/-! SUPPORT. The decision table of the dispatch by single bits (spec/45_dispatch.md R139), what it never reads (R138), and
deliveries to a handler that is not bound (R137, spec/46_start_stop.md R142 to R147). -/

namespace Sys2Proof.Machine

/-! ### HANDLE_INTERRUPT -/

/-- The test of case 1 (R131) by bits: a mask is the lone switch bit exactly when it has that bit and no other. -/
theorem eq_switchMask_iff {p : PinAssignment} (hport : p.swBit ≤ 15) (flagged : Port) :
    flagged = switchMask p ↔ ∀ n, n < 16 → (flagged.getLsbD n = true ↔ n = p.swBit) := by
  simp only [BitVec.eq_of_getLsbD_eq_iff, switchMask, getLsbD_lineMask hport]
  refine forall₂_congr fun n _ => ?_
  rw [Bool.eq_iff_iff, decide_eq_true_eq, eq_comm (a := n)]

/-- Settles O39: the three tests of the handler by bits. A rotation bit shuts out the lone switch bit, since the lines
are distinct. -/
theorem handlerDecisionTable : Obligations.HandlerDecisionTable := by
  unfold Obligations.HandlerDecisionTable
  intro s flagged captured hs hpins line anyRotation switchAlone
  have hline (n : Nat) : line n = lineLevel captured n := (lineLevel_eq_ofBool captured n).symm
  have hcase1 : s.pins.swPresent = true ∧ flagged = switchMask s.pins ↔ switchAlone := by
    obtain ⟨-, -, -, hswitch⟩ := hpins
    exact and_congr_right fun hsw => eq_switchMask_iff (hswitch hsw).1 flagged
  have hcase2 := and_rotationMask_ne_zero_iff hpins flagged
  refine ⟨fun hrot => ?rotation, fun halone => ?switchAlone, fun hrot halone => ?neither⟩
  case rotation =>
    rw [hline, hline]
    exact exec_handleInterrupt_of_rotation captured
      (fun h => ne_switchMask_of_rotation_bit hpins h.1 hrot h.2) (hcase2.2 hrot)
  case switchAlone =>
    rw [hline]
    exact exec_handleInterrupt_of_switchAlone captured (hcase1.2 halone)
  case neither =>
    have hexec : exec (.handleInterrupt flagged captured) s = .next (handleInterrupt flagged captured s) :=
      exec_of_constructed s nofun hs
    rw [hexec, handleInterrupt_of_neither s (fun h => halone (hcase1.1 h)) fun h => hrot (hcase2.1 h)]

/-- The handler moves the button, or the register and the count, or nothing. -/
theorem handleInterrupt_button_or_rotation (flagged captured : Port) (s : State) :
    (handleInterrupt flagged captured s).buttonState = s.buttonState ∨
      ((handleInterrupt flagged captured s).quadState = s.quadState ∧
        (handleInterrupt flagged captured s).value = s.value) := by
  obtain ⟨-, h⟩ | h | h := handleInterrupt_cases s flagged captured
  · rw [h, reportButton_eq]
    exact .inr ⟨rfl, rfl⟩
  · rw [h, rotate_buttonState]
    exact .inl rfl
  · rw [h]
    exact .inl rfl

/-- Settles O41: a handled interrupt takes one of the three cases, and a delivery is a handled interrupt or nothing. -/
theorem handlerNeverDoesBoth : Obligations.HandlerNeverDoesBoth := by
  unfold Obligations.HandlerNeverDoesBoth
  intro s t flagged captured h
  obtain h | h := h
  · obtain ⟨rfl, -⟩ := exec_next h
    exact handleInterrupt_button_or_rotation flagged captured s
  · obtain ⟨rfl, -⟩ := exec_next h
    obtain ⟨-, hrun⟩ | ⟨-, hrun⟩ := deliverInterrupt_cases s flagged captured
    · rw [procedure, hrun]
      exact handleInterrupt_button_or_rotation flagged captured s
    · rw [procedure, hrun]
      exact .inl rfl

/-- The handler reads the snapshot at the configured lines only, and at the switch line in case 1 only. -/
theorem handleInterrupt_congr_captured {s : State} (flagged : Port) {c c' : Port}
    (hclk : c.getLsbD s.pins.clkBit = c'.getLsbD s.pins.clkBit) (hdt : c.getLsbD s.pins.dtBit = c'.getLsbD s.pins.dtBit)
    (hsw : s.pins.swPresent = true → c.getLsbD s.pins.swBit = c'.getLsbD s.pins.swBit) :
    handleInterrupt flagged c s = handleInterrupt flagged c' s := by
  by_cases hswitch : s.pins.swPresent = true ∧ flagged = switchMask s.pins
  · rw [handleInterrupt_of_switchAlone s hswitch, handleInterrupt_of_switchAlone s hswitch, lineLevel_eq_ofBool,
      lineLevel_eq_ofBool, hsw hswitch.1]
  · by_cases hrotation : flagged &&& rotationMask s.pins ≠ 0#16
    · rw [handleInterrupt_of_rotation s hswitch hrotation, handleInterrupt_of_rotation s hswitch hrotation]
      simp only [lineLevel_eq_ofBool, hclk, hdt]
    · rw [handleInterrupt_of_neither s hswitch hrotation, handleInterrupt_of_neither s hswitch hrotation]

/-- Settles O42: the two snapshots give the handler the same levels, and a delivery reads the snapshot through it. -/
theorem unconfiguredLinesAreNeverRead : Obligations.UnconfiguredLinesAreNeverRead := by
  unfold Obligations.UnconfiguredLinesAreNeverRead
  intro s flagged c c' hclk hdt hsw
  have hhandler := handleInterrupt_congr_captured flagged hclk hdt hsw
  have hdelivery : deliverInterrupt flagged c s = deliverInterrupt flagged c' s := by
    rw [deliverInterrupt, deliverInterrupt, hhandler]
  exact ⟨exec_congr_procedure nofun nofun hhandler, exec_congr_procedure nofun nofun hdelivery⟩

/-! ### IRQ -/

/-- Settles O43: an IRQ is its delivery on an existing instance. -/
theorem deliveryIsGatedByBound : Obligations.DeliveryIsGatedByBound := by
  unfold Obligations.DeliveryIsGatedByBound
  intro s flagged captured hs
  have hexec : exec (.irq flagged captured) s = .next (deliverInterrupt flagged captured s) :=
    exec_of_constructed s nofun hs
  refine ⟨⟨_, hexec⟩, fun hbound => ?bound, fun hbound => ?unbound⟩
  case bound => exact exec_congr_procedure nofun nofun (deliverInterrupt_of_bound hbound)
  case unbound => rw [hexec, deliverInterrupt_of_not_bound hbound]

theorem deliveries_ne_construct {inputs : List (Port × Port)} : ∀ i ∈ deliveries inputs, i ≠ .construct := by
  intro i hi
  obtain ⟨p, -, rfl⟩ := List.mem_map.1 hi
  exact nofun

/-- Deliveries to a handler that is not bound do nothing, however many they are (R137). -/
theorem procedures_deliveries_of_not_bound (inputs : List (Port × Port)) {s : State} (h : s.bound = false) :
    procedures (deliveries inputs) s = s := by
  induction inputs with
  | nil => rfl
  | cons p inputs ih =>
    have hfirst : procedure (.irq p.1 p.2) s = s := deliverInterrupt_of_not_bound h
    exact (congrArg (procedures (deliveries inputs)) hfirst).trans ih

/-- STOP and any deliveries behind it make the state STOP makes. -/
theorem procedures_stop_deliveries (inputs : List (Port × Port)) (s : State) :
    procedures (.stop :: deliveries inputs) s = unbindHandler s :=
  procedures_deliveries_of_not_bound inputs (s := unbindHandler s) rfl

theorem stop_deliveries_ne_construct {inputs : List (Port × Port)} : ∀ i ∈ .stop :: deliveries inputs, i ≠ .construct :=
  List.forall_mem_cons.2 ⟨nofun, deliveries_ne_construct⟩

/-- Settles O46: STOP leaves the handler not bound. -/
theorem deliveriesAfterStopAreLost : Obligations.DeliveriesAfterStopAreLost := by
  unfold Obligations.DeliveriesAfterStopAreLost
  intro s inputs hs
  have hstop : exec .stop s = .next (unbindHandler s) := exec_of_constructed s nofun hs
  rw [execAll_of_constructed stop_deliveries_ne_construct hs, procedures_stop_deliveries, hstop]

/-- Settles O47: the deliveries are lost, and neither STOP nor START writes the count, the register or the button. -/
theorem startAfterStopResumes : Obligations.StartAfterStopResumes := by
  unfold Obligations.StartAfterStopResumes
  intro s inputs hs
  have hne : ∀ i ∈ (.stop :: deliveries inputs) ++ [.start], i ≠ .construct :=
    List.forall_mem_append.2 ⟨stop_deliveries_ne_construct, by decide⟩
  have hrun : procedures ((.stop :: deliveries inputs) ++ [.start]) s = bindHandler (unbindHandler s) := by
    rw [procedures_append, procedures_stop_deliveries]
    rfl
  exact ⟨bindHandler (unbindHandler s), (execAll_of_constructed hne hs).trans (congrArg _ hrun), rfl, rfl, rfl, rfl⟩

end Sys2Proof.Machine

/-! SUPPORT. The accesses of each operation at the collaborator (spec/20_memory.md R42 to R44, R55), whatever it held, and
the elements each operation may change (spec/10_state.md R33). -/

namespace Sys2Proof.Machine

/-! ### START, STOP and the operations without an access -/

/-- Settles O49: the two events of START and of STOP. -/
theorem startAndStopAtTheCollaborator : Obligations.StartAndStopAtTheCollaborator := by
  unfold Obligations.StartAndStopAtTheCollaborator
  intro s t es c htrace
  refine ⟨fun h => ?start, fun h => ?stop⟩
  case start =>
    rw [eq_appended h htrace]
    rfl
  case stop =>
    rw [eq_appended h htrace]
    rfl

theorem isSink_of_mem_reports {t : State} {n : Nat} {e : OutEvent} (h : e ∈ reports t n) : e.isSink = true := by
  obtain ⟨-, rfl⟩ := mem_reports h
  rfl

/-- Only CONSTRUCT, START and STOP access the collaborator. -/
theorem isSink_of_mem_appended {s t : State} {i : Instr} (hconstruct : i ≠ .construct) (hstart : i ≠ .start)
    (hstop : i ≠ .stop) {e : OutEvent} (h : e ∈ appended s t i) : e.isSink = true := by
  cases i with
  | construct => exact absurd rfl hconstruct
  | start => exact absurd rfl hstart
  | stop => exact absurd rfl hstop
  | _ => exact isSink_of_mem_reports h

/-- Reports to the callback do not touch the collaborator. -/
theorem afterAll_of_sinks {es : List OutEvent} (h : ∀ e ∈ es, e.isSink = true) (c : Collaborator) : c.afterAll es = c := by
  induction es with
  | nil => rfl
  | cons e es ih =>
    obtain ⟨he, hes⟩ := List.forall_mem_cons.1 h
    have hfirst : c.after e = c := by
      cases e with
      | event v b => rfl
      | _ => cases he
    exact (congrArg (Collaborator.afterAll · es) hfirst).trans (ih hes)

/-- Settles O50: these operations append reports only. -/
theorem otherOperationsLeaveTheCollaboratorAlone : Obligations.OtherOperationsLeaveTheCollaboratorAlone := by
  unfold Obligations.OtherOperationsLeaveTheCollaboratorAlone
  intro i s t es c hconstruct hstart hstop h htrace
  have hsinks : ∀ e ∈ es, e.isSink = true := by
    rw [eq_appended h htrace]
    exact fun e => isSink_of_mem_appended hconstruct hstart hstop
  exact ⟨afterAll_of_sinks hsinks c, hsinks⟩

theorem reportButton_bound (level : Bit) (s : State) : (reportButton level s).bound = s.bound := by
  rw [reportButton_eq]

theorem handleInterrupt_bound (flagged captured : Port) (s : State) :
    (handleInterrupt flagged captured s).bound = s.bound := by
  obtain ⟨-, h⟩ | h | h := handleInterrupt_cases s flagged captured
  · rw [h, reportButton_bound]
  · rw [h, rotate_bound]
  · rw [h]

/-- Only CONSTRUCT, START and STOP write `bound` (R28). -/
theorem exec_bound {i : Instr} {s t : State} (hconstruct : i ≠ .construct) (hstart : i ≠ .start) (hstop : i ≠ .stop)
    (h : exec i s = .next t) : t.bound = s.bound := by
  obtain ⟨rfl, -⟩ := exec_next h
  cases i with
  | construct => exact absurd rfl hconstruct
  | onRotation clk dt => exact rotate_bound s clk dt
  | step d => rw [procedure, stepCounter_eq]
  | onButton level => exact reportButton_bound level s
  | handleInterrupt f c => exact handleInterrupt_bound f c s
  | start => exact absurd rfl hstart
  | stop => exact absurd rfl hstop
  | irq f c =>
    obtain ⟨-, hrun⟩ | ⟨-, hrun⟩ := deliverInterrupt_cases s f c
    · rw [procedure, hrun, handleInterrupt_bound]
    · rw [procedure, hrun]

/-- Settles O51: START and STOP set the registration and `bound` together, and the others leave both alone. -/
theorem boundMirrorsTheRegistration : Obligations.BoundMirrorsTheRegistration := by
  unfold Obligations.BoundMirrorsTheRegistration
  intro i s t es c hconstruct h htrace hmirror
  obtain ⟨hstartEvents, hstopEvents⟩ := startAndStopAtTheCollaborator s t es c htrace
  by_cases hstart : i = .start
  · subst hstart
    rw [hstartEvents h]
    obtain ⟨rfl, -⟩ := exec_next h
    rfl
  · by_cases hstop : i = .stop
    · subst hstop
      rw [hstopEvents h]
      obtain ⟨rfl, -⟩ := exec_next h
      rfl
    · obtain ⟨hafter, -⟩ := otherOperationsLeaveTheCollaboratorAlone i s t es c hconstruct hstart hstop h htrace
      rw [hafter, exec_bound hconstruct hstart hstop h, hmirror]

/-! ### CONSTRUCT -/

theorem getLsbD_armedMask {p : PinAssignment} (h : p.WellFormed) (n : Nat) :
    (armedMask p).getLsbD n = decide (n = p.clkBit ∨ n = p.dtBit ∨ (p.swPresent = true ∧ n = p.swBit)) := by
  obtain ⟨hclk, hdt, -, hswitch⟩ := h
  cases hsw : p.swPresent with
  | true =>
    have hport := (hswitch hsw).1
    simp [armedMask, rotationMask, switchMask, hsw, getLsbD_lineMask, hclk, hdt, hport, eq_comm (a := n), Bool.or_assoc]
  | false => simp [armedMask, rotationMask, hsw, getLsbD_lineMask, hclk, hdt, eq_comm (a := n)]

theorem register_afterAll_constructionEvents (c : Collaborator) (m : Port) (reg : OrRegister) :
    (c.afterAll (constructionEvents m)).register reg = c.register reg ||| m := by
  cases reg <;> rfl

/-- Settles O48: each register is OR-written once with the armed mask, whose bits are those of the configured lines. -/
theorem constructArmsExactlyTheConfiguredLines : Obligations.ConstructArmsExactlyTheConfiguredLines := by
  unfold Obligations.ConstructArmsExactlyTheConfiguredLines
  intro s t es c h htrace p c'
  obtain ⟨-, -, hpins⟩ := wellFormed_of_exec_construct h
  have hes : es = constructionEvents (armedMask p) := eq_appended h htrace
  subst hes
  refine ⟨fun reg n _ => ?_, rfl, rfl, rfl⟩
  rw [show c' = c.afterAll (constructionEvents (armedMask p)) from rfl, register_afterAll_constructionEvents,
    BitVec.getLsbD_or, getLsbD_armedMask hpins]

/-! ### The table of writers -/

/-- Settles O52, operation by operation: it is among the writers of an element or leaves the element as it is. -/
theorem onlyTheTabulatedOperationsWrite : Obligations.OnlyTheTabulatedOperationsWrite := by
  unfold Obligations.OnlyTheTabulatedOperationsWrite
  intro i s t h handler rotation
  have hbound : t.bound ≠ s.bound → i = .construct ∨ i = .start ∨ i = .stop := fun hne => by
    by_contra hnot
    simp only [not_or] at hnot
    obtain ⟨hconstruct, hstart, hstop⟩ := hnot
    exact hne (exec_bound hconstruct hstart hstop h)
  have hcfg := exec_cfg h
  have hcommands := exec_commands h
  suffices hregisters :
      (t.value ≠ s.value → i = .construct ∨ (∃ d, i = .step d) ∨ rotation ∨ handler) ∧
      (t.quadState ≠ s.quadState → i = .construct ∨ rotation ∨ handler) ∧
      (t.buttonState ≠ s.buttonState → i = .construct ∨ (∃ l, i = .onButton l) ∨ handler) by
    obtain ⟨hvalue, hquad, hbutton⟩ := hregisters
    exact ⟨hvalue, hquad, hbutton, hbound, hcfg, hcommands⟩
  obtain ⟨rfl, -⟩ := exec_next h
  cases i with
  | construct => exact ⟨fun _ => .inl rfl, fun _ => .inl rfl, fun _ => .inl rfl⟩
  | onRotation clk dt =>
    have hrotation : rotation := ⟨clk, dt, rfl⟩
    exact ⟨fun _ => .inr (.inr (.inl hrotation)), fun _ => .inr (.inl hrotation),
      fun hne => absurd (rotate_buttonState s clk dt) hne⟩
  | step d =>
    rw [procedure, stepCounter_eq]
    exact ⟨fun _ => .inr (.inl ⟨d, rfl⟩), fun hne => absurd rfl hne, fun hne => absurd rfl hne⟩
  | onButton level =>
    rw [procedure, reportButton_eq]
    exact ⟨fun hne => absurd rfl hne, fun hne => absurd rfl hne, fun _ => .inr (.inl ⟨level, rfl⟩)⟩
  | handleInterrupt f c =>
    have hhandler : handler := .inl ⟨f, c, rfl⟩
    exact ⟨fun _ => .inr (.inr (.inr hhandler)), fun _ => .inr (.inr hhandler), fun _ => .inr (.inr hhandler)⟩
  | start => exact ⟨fun hne => absurd rfl hne, fun hne => absurd rfl hne, fun hne => absurd rfl hne⟩
  | stop => exact ⟨fun hne => absurd rfl hne, fun hne => absurd rfl hne, fun hne => absurd rfl hne⟩
  | irq f c =>
    obtain ⟨hs, -⟩ | ⟨-, hrun⟩ := deliverInterrupt_cases s f c
    · have hhandler : handler := .inr ⟨f, c, rfl, hs⟩
      exact ⟨fun _ => .inr (.inr (.inr hhandler)), fun _ => .inr (.inr hhandler), fun _ => .inr (.inr hhandler)⟩
    · rw [procedure, hrun]
      exact ⟨fun hne => absurd rfl hne, fun hne => absurd rfl hne, fun hne => absurd rfl hne⟩

end Sys2Proof.Machine

/-! SUPPORT. Reading back the assembler line of an operation (spec/30_encoding.md R73): the line cut into words, and the
words of a 16-bit operand. -/

namespace Sys2Proof.Machine

/-! ### Words of a line -/

/-- A word of a line: not empty, and free of the characters a line is cut at. -/
def IsToken (l : List Char) : Prop := l ≠ [] ∧ ∀ c ∈ l, c ≠ ' ' ∧ c ≠ ',' ∧ c ≠ ';'

theorem IsToken.reverse {l : List Char} (h : IsToken l) : IsToken l.reverse :=
  ⟨List.reverse_ne_nil_iff.2 h.1, fun c hc => h.2 c (List.mem_reverse.1 hc)⟩

theorem IsToken.dropWhile_of_prefix {a l : List Char} (h : IsToken a) (hl : a <+: l) : l.dropWhile (· == ' ') = l := by
  obtain ⟨hne, hchars⟩ := h
  obtain ⟨rest, rfl⟩ := hl
  cases a with
  | nil => exact absurd rfl hne
  | cons x xs =>
    obtain ⟨hspace, -⟩ := hchars x List.mem_cons_self
    exact List.dropWhile_cons_of_neg (by simpa using hspace)

/-- A line that begins and ends with a word has no outer spaces. -/
theorem trim_eq_self {a b l : List Char} (ha : IsToken a) (hb : IsToken b) (hprefix : a <+: l) (hsuffix : b <:+ l) :
    trim l = l := by
  rw [trim, ha.dropWhile_of_prefix hprefix, hb.reverse.dropWhile_of_prefix (List.reverse_prefix.2 hsuffix),
    List.reverse_reverse]

theorem IsToken.trim {l : List Char} (h : IsToken l) : trim l = l :=
  trim_eq_self h h List.prefix_rfl List.suffix_rfl

theorem trim_cons_space (l : List Char) : trim (' ' :: l) = trim l := rfl

theorem splitAtChar_of_not_mem {sep : Char} {l : List Char} (h : sep ∉ l) : splitAtChar sep l = [l] := by
  induction l with
  | nil => rfl
  | cons c cs ih =>
    rw [List.mem_cons, not_or] at h
    obtain ⟨hc, hcs⟩ := h
    simp [splitAtChar, ih hcs, Ne.symm hc]

/-- A line cut is at least one piece. -/
theorem splitAtChar_eq_cons (sep : Char) (l : List Char) : ∃ p ps, splitAtChar sep l = p :: ps := by
  cases l with
  | nil => exact ⟨_, _, rfl⟩
  | cons c cs =>
    rw [splitAtChar]
    split
    · exact ⟨_, _, rfl⟩
    · split <;> exact ⟨_, _, rfl⟩

theorem splitAtChar_append_sep {sep : Char} {l : List Char} (h : sep ∉ l) (rest : List Char) :
    splitAtChar sep (l ++ sep :: rest) = l :: splitAtChar sep rest := by
  induction l with
  | nil =>
    obtain ⟨p, ps, hrest⟩ := splitAtChar_eq_cons sep rest
    simp [splitAtChar, hrest]
  | cons c cs ih =>
    rw [List.mem_cons, not_or] at h
    obtain ⟨hc, hcs⟩ := h
    simp [splitAtChar, ih hcs, Ne.symm hc]

/-! ### The operands of format P -/

theorem hexValue_hexDigit (d : BitVec 4) : hexValue (hexDigit d) = some d := by
  decide +revert

theorem hexDigit_ne_separator (d : BitVec 4) : hexDigit d ≠ ' ' ∧ hexDigit d ≠ ',' ∧ hexDigit d ≠ ';' := by
  decide +revert

theorem isToken_portText (p : Port) : IsToken (portText p) := by
  refine ⟨nofun, fun c hc => ?_⟩
  simp only [portText, List.mem_cons, List.not_mem_nil, or_false] at hc
  obtain rfl | rfl | rfl | rfl | rfl | rfl := hc
  · decide
  · decide
  all_goals exact hexDigit_ne_separator _

theorem append_extractLsb'_nibbles (p : Port) :
    p.extractLsb' 12 4 ++ p.extractLsb' 8 4 ++ p.extractLsb' 4 4 ++ p.extractLsb' 0 4 = p := by
  have hp := p.isLt
  apply BitVec.eq_of_toNat_eq
  simp only [append_toNat, BitVec.extractLsb'_toNat, Nat.shiftRight_eq_div_pow]
  omega

theorem parsePort_portText (p : Port) : parsePort (portText p) = some p := by
  simp only [portText, parsePort, hexValue_hexDigit, append_extractLsb'_nibbles]

/-- The line of an operation with two port operands. -/
def portLine (name : List Char) (flagged captured : Port) : List Char :=
  name ++ [' '] ++ portText flagged ++ [',', ' '] ++ portText captured

theorem lineBody_portLine {name : List Char} (h : IsToken name) (flagged captured : Port) :
    lineBody (portLine name flagged captured) = portLine name flagged captured := by
  have hcomment : (portLine name flagged captured).takeWhile (· != ';') = portLine name flagged captured := by
    rw [List.takeWhile_eq_self_iff]
    have hflagged := (isToken_portText flagged).2
    have hcaptured := (isToken_portText captured).2
    have hname := h.2
    simp only [portLine, List.mem_append, List.mem_cons, List.not_mem_nil, or_false, bne_iff_ne]
    grind
  have hprefix : name <+: portLine name flagged captured := by
    simp only [portLine, List.append_assoc]
    exact List.prefix_append _ _
  rw [lineBody, hcomment, trim_eq_self h (isToken_portText captured) hprefix (List.suffix_append _ _)]

theorem lineParts_portLine {name : List Char} (h : IsToken name) (flagged captured : Port) :
    lineParts (portLine name flagged captured) = (name, [portText flagged, portText captured]) := by
  have hname : ∀ c ∈ name, (c != ' ') = true := fun c hc => bne_iff_ne.2 (h.2 c hc).1
  have hf := isToken_portText flagged
  have hc := isToken_portText captured
  have hsplit : splitAtChar ',' (portText flagged ++ ',' :: ' ' :: portText captured) =
      [portText flagged, ' ' :: portText captured] := by
    rw [splitAtChar_append_sep fun hmem => (hf.2 _ hmem).2.1 rfl, splitAtChar_of_not_mem]
    rintro (_ | ⟨_, hmem⟩)
    exact (hc.2 _ hmem).2.1 rfl
  have hrest : trim (' ' :: (portText flagged ++ ',' :: ' ' :: portText captured)) =
      portText flagged ++ ',' :: ' ' :: portText captured := by
    rw [trim_cons_space, trim_eq_self hf hc (List.prefix_append _ _)]
    exact List.suffix_append (portText flagged ++ [',', ' ']) (portText captured)
  have hline : portLine name flagged captured =
      name ++ ' ' :: (portText flagged ++ ',' :: ' ' :: portText captured) := by
    simp [portLine]
  have hmnemonic : (portLine name flagged captured).takeWhile (· != ' ') = name := by
    rw [hline, List.takeWhile_append_of_pos hname]
    exact List.append_nil name
  have hoperands : (portLine name flagged captured).dropWhile (· != ' ') =
      ' ' :: (portText flagged ++ ',' :: ' ' :: portText captured) := by
    rw [hline, List.dropWhile_append_of_pos hname]
    rfl
  rw [lineParts, hmnemonic, hoperands, hrest, if_neg (by simp), hsplit]
  simp only [List.map_cons, List.map_nil, trim_cons_space, hf.trim, hc.trim]

theorem parseLine_portLine {name : List Char} {operation : Port → Port → Instr} (h : IsToken name)
    (hpseudo : parsePseudo name = none) (hoperation : ∀ ops, parseOperation name ops = parsePorts operation ops)
    (flagged captured : Port) : parseLine (portLine name flagged captured) = some [operation flagged captured] := by
  have hne : portLine name flagged captured ≠ [] := by
    simp [portLine]
  simp only [parseLine, lineBody_portLine h, if_neg hne, lineParts_portLine h, hpseudo, hoperation, parsePorts,
    parsePort_portText, Option.map_some]

theorem isToken_nameHandleInterrupt : IsToken nameHandleInterrupt := by
  simp [IsToken, nameHandleInterrupt]

theorem isToken_nameIrq : IsToken nameIrq := by
  simp [IsToken, nameIrq]

/-- Settles O6: the lines without a 16-bit operand are finitely many, and one with two is cut into its mnemonic and its
operands, each of which is read back. -/
theorem assemblerLineIsReadBack : Obligations.AssemblerLineIsReadBack := by
  unfold Obligations.AssemblerLineIsReadBack
  intro i
  cases i with
  | construct => decide
  | onRotation clk dt => decide +revert
  | step d => cases d <;> decide
  | onButton level => decide +revert
  | handleInterrupt flagged captured =>
    exact parseLine_portLine isToken_nameHandleInterrupt (by decide) (fun _ => rfl) flagged captured
  | start => decide
  | stop => decide
  | irq flagged captured =>
    exact parseLine_portLine isToken_nameIrq (by decide) (fun _ => rfl) flagged captured

end Sys2Proof.Machine
